-- ==== Sys2Proof/Word.lean ====
section
/-! DEFINITION. The word types of the OX64 and their plainest arithmetic (R2, R3). -/

namespace Sys2Proof

/-- A byte of memory (R2). -/
abbrev Byte := BitVec 8
/-- A scalar register, a scalar word, a system register (R7, R78, R342). -/
abbrev W64 := BitVec 64
/-- A global virtual address or a PC (R7, R113). -/
abbrev VA := BitVec 56
/-- One bundle, bits 511:0 (R62). -/
abbrev BundleBits := BitVec 512
/-- One slot field, bits 61:0 (R62). -/
abbrev SlotBits := BitVec 62

/-- The 64-bit word of a natural number, reduced modulo 2^64. -/
abbrev w64 (n : Nat) : W64 := BitVec.ofNat 64 n

end Sys2Proof
end

