-- ==== Sys2Proof/Config.lean ====
section
/-! DEFINITION. What the spec leaves open. Each constant is opaque: nothing proves a value of it, so a statement about it
holds whatever it is. Functions of a number are applied to State.stepNo, which counts steps. -/

namespace Sys2Proof.Config

/-- The 1 GHz reference count that a reading of TIME gives (R342; log 3). -/
opaque timeAt : Nat → W64
/-- The delivered core-clock pulses that a reading of CYCLES gives (R342, R447; log 3). -/
opaque cyclesAt : Nat → W64
/-- Counts of the timing events of EVSEL, by counter (R344; log 3). -/
opaque timingEvents : Nat → Nat → W64
/-- The undefined slices of an ACC row after an MMUL that consumed an error (R382; log 7). -/
opaque freeAcc : Nat → Nat → BitVec 32
/-- Whether the Landing writes RDPTR at a dispatch at which it need not (R273; log 17). -/
opaque writesRd : Nat → Bool
/-- The first LAUNCHID of a job (R13; log 4). -/
opaque launchId : Nat → W64
/-- Identifiers of graphs and phases in records (R296; log 4). -/
opaque workId : Nat → W64
/-- ID, TAG and BERTH of a job's record, and BERTH where a queue has none (R296; log 4). -/
opaque jobRec : Nat → BitVec 108
/-- Whether the image in the staging area passes the ROM's check, and its FAIL code (R441, R442; log 10). -/
opaque imageFail : List (Nat × BitVec 8) → BitVec 8
/-- The secure-block registers that the signed configuration block of the image sets (R442, R444; log 13). -/
opaque imageClkctl : List (Nat × BitVec 8) → W64
opaque imageMid : List (Nat × BitVec 8) → W64
opaque imageQtbase : List (Nat × BitVec 8) → W64
opaque imagePmode : List (Nat × BitVec 8) → W64
/-- The purser pair's translation root and first PC, which the image sets (R361, R442; log 9). -/
opaque purserRoot : List (Nat × BitVec 8) → W64
opaque purserEntry : List (Nat × BitVec 8) → VA
/-- IDHASH words and the attestation report (R441, R443; log 10). -/
opaque idHash : Nat → W64
opaque attest : BitVec 512 → BitVec 512 → BitVec 512 → W64 → List (BitVec 8)
/-- The hashes of the image and of its configuration block, from the memory that holds the staging area (R442, R443; log 10). -/
opaque imageHash : List (Nat × BitVec 8) → BitVec 512
opaque cfgHash : List (Nat × BitVec 8) → BitVec 512
/-- The stepping in IDENT (R441; log 10). -/
opaque stepping : BitVec 8
/-- Words of the capability records that the spec does not lay out, by offset (R446; log 10). -/
opaque capWord : Nat → W64
/-- The room left before each capability record in BAR0 (R446; log 10). -/
opaque capGap : Nat → Nat
/-- The Vyivo port that carries data to another module, by the step and the module (R416; log 4). -/
opaque vyivoPort : Nat → Nat → Nat
/-- Syndromes of the errors the machine itself detects (R392; log 10). -/
opaque syndrome : Nat → W64
/-- The 64 KiB blocks of the Vitrine's overlap with the spill area that a lane's spill slices and a Vitrine line take, by lane
and by the line's place (R206, R207; log 16). -/
opaque spillBlock : Nat → Nat
opaque vitBlock : Nat → Nat

end Sys2Proof.Config
end

