-- ==== Sys2Proof/Syntax.lean ====
section
/-! DEFINITION. The instructions and steps of the OX64 as data: one constructor of `Instr` per row of
spec/opcode_table.json. Slot instructions carry their decoded fields, packets theirs, and steps of the machine (events)
the agent they concern. -/

namespace Sys2Proof

/-- A scalar register number x0 to x63 (R79). -/
abbrev Reg := BitVec 6
/-- A scalar predicate q0 to q7 (R79). -/
abbrev QIdx := BitVec 3
/-- A lane predicate p0 to p15 (R150). -/
abbrev PIdx := BitVec 4
/-- A token tk0 to tk63 (R177). -/
abbrev Tok := BitVec 6

/-- Element types (R33). -/
inductive ETy where
  | s4 | s8 | s16 | s32 | s64 | n4 | n8 | n16 | n32 | n64 | fp8a | fp8b | bf16 | fp16 | fp32
  deriving DecidableEq, Repr

/-- The rounding field (R44). -/
inductive Rnd where
  | rne | rtz | rdn | rup | dyn
  deriving DecidableEq, Repr

/-- Condition codes of CMP, CMPI and BR (R104). -/
inductive Cond where
  | eq | ne | lt | ge | ltn | gen
  deriving DecidableEq, Repr

/-- Predicate functions of QOP (R107). -/
inductive QFn where
  | and | or | xor | andn | orn | xnor | not
  deriving DecidableEq, Repr

/-- Relations of FCMP (R109). -/
inductive FRel where
  | eq | ne | lt | le | un
  deriving DecidableEq, Repr

/-- Kinds of FCVT (R110). -/
inductive FCvt where
  | s64fp32 | n64fp32 | s32fp32 | n32fp32 | fp32s64 | fp32n64 | bf16fp32 | fp16fp32 | fp32bf16 | fp32fp16
  deriving DecidableEq, Repr

/-- Access sizes of scalar memory instructions (R111). -/
inductive MSize where
  | b1 | b2 | b4 | b8
  deriving DecidableEq, Repr

/-- Atomic operations (R114). -/
inductive AOp where
  | swap | add | and | or | xor | min | max | minn | maxn | cas
  deriving DecidableEq, Repr

/-- WIDTH codes of a slice operand (R73). -/
inductive Width where
  | w4 | w8 | w12 | w16 | w32 | w64
  deriving DecidableEq, Repr

/-- A slice operand (R73). -/
structure Dst where
  start : BitVec 9
  w : Width
  deriving DecidableEq, Repr

/-- A source operand of a die slot: slices or a special operand (R73, R75). -/
inductive Opnd where
  | sl (d : Dst)
  | x (r : Reg)
  | lane | row | col | quad | die
  | c (n : BitVec 6)
  deriving DecidableEq, Repr

/-- Three sources (R149). -/
structure V3 where
  pg : PIdx
  ty : ETy
  vd : Dst
  va : Opnd
  vb : Opnd
  vc : Opnd
  deriving DecidableEq, Repr

/-- Two sources (R149). -/
structure V2 where
  pg : PIdx
  ty : ETy
  vd : Dst
  va : Opnd
  vb : Opnd
  deriving DecidableEq, Repr

/-- One source (R149). -/
structure V1 where
  pg : PIdx
  ty : ETy
  vd : Dst
  va : Opnd
  deriving DecidableEq, Repr

/-- Relations of VCMP (R158). -/
inductive VRel where
  | eq | ne | lt | le | gt | ge | un
  deriving DecidableEq, Repr

structure VCmpA where
  pg : PIdx
  ty : ETy
  rel : VRel
  pd : PIdx
  va : Opnd
  vb : Opnd
  deriving DecidableEq, Repr

structure VSelA where
  pg : PIdx
  ty : ETy
  vd : Dst
  va : Opnd
  vb : Opnd
  ps : PIdx
  deriving DecidableEq, Repr

structure VCvtA where
  pg : PIdx
  td : ETy
  ts : ETy
  rnd : Rnd
  sat : Bool
  vd : Dst
  va : Opnd
  deriving DecidableEq, Repr

/-- The amount of a rotation or broadcast (R162). -/
inductive Amt where
  | imm (n : BitVec 6)
  | x (r : Reg)
  | c (n : BitVec 6)
  deriving DecidableEq, Repr

structure VAxA where
  pg : PIdx
  ty : ETy
  vd : Dst
  va : Opnd
  amt : Amt
  deriving DecidableEq, Repr

/-- Operations of VREDR and VREDC (R165). -/
inductive RedOp where
  | add | min | max | and | or | xor
  deriving DecidableEq, Repr

structure VRedA where
  pg : PIdx
  ty : ETy
  op : RedOp
  vd : Dst
  va : Opnd
  deriving DecidableEq, Repr

structure VIdxA where
  pg : PIdx
  ty : ETy
  quad : Bool
  vd : Dst
  pa : PIdx
  deriving DecidableEq, Repr

structure P2 where
  pg : PIdx
  pd : PIdx
  pa : PIdx
  pb : PIdx
  deriving DecidableEq, Repr

structure P1 where
  pg : PIdx
  pd : PIdx
  pa : PIdx
  deriving DecidableEq, Repr

/-- What VLADD adds (R168). -/
inductive LSrc where
  | val (ty : ETy) (o : Opnd)
  | lacc (st : BitVec 9)
  deriving DecidableEq, Repr

structure VLaddA where
  pg : PIdx
  vd : BitVec 9
  va : BitVec 9
  src : LSrc
  deriving DecidableEq, Repr

structure VLrndA where
  pg : PIdx
  vd : Dst
  va : BitVec 9
  deriving DecidableEq, Repr

/-- Operations of VCOND (R170). -/
inductive CondOp where
  | or | and | isum | fmax | fmin | fsum
  deriving DecidableEq, Repr

structure VCondA where
  pg : PIdx
  ty : ETy
  op : CondOp
  dc : BitVec 2
  va : Opnd
  deriving DecidableEq, Repr

/-- Format VM: a lane access (R225). -/
structure LMem where
  pg : PIdx
  vd : Dst
  vi : Opnd
  xa : Reg
  sc : BitVec 3
  dev : Bool
  off : BitVec 16
  deriving DecidableEq, Repr

structure VPrefA where
  pg : PIdx
  vi : Opnd
  xa : Reg
  sc : BitVec 3
  off : BitVec 16
  deriving DecidableEq, Repr

structure VLdtA where
  pg : PIdx
  start : BitVec 9
  vi : Opnd
  xa : Reg
  sc : BitVec 3
  tn : BitVec 8
  deriving DecidableEq, Repr

structure SpillA where
  pg : PIdx
  ss : BitVec 9
  nsm1 : BitVec 9
  sps : BitVec 12
  xo : Reg
  deriving DecidableEq, Repr

structure VAmoA where
  pg : PIdx
  vd : Dst
  vs : Dst
  vi : Opnd
  xa : Reg
  sc : BitVec 3
  op : AOp
  glob : Bool
  deriving DecidableEq, Repr

/-- Up to three consumed tokens (R177). -/
structure Toks where
  tv : BitVec 3
  t0 : Tok
  t1 : Tok
  t2 : Tok
  deriving DecidableEq, Repr

/-- Weight types of MLDS (R177). -/
inductive WTy where
  | bf16 | fp8a | fp8b | g4 | g3
  deriving DecidableEq, Repr

structure MldsA where
  tout : Tok
  tin : Toks
  tw : BitVec 8
  xw : Reg
  xs : Reg
  wt : WTy
  t : Bool
  deriving DecidableEq, Repr

/-- Activation types of MMUL (R177). -/
inductive ATy where
  | bf16 | fp8a | fp8b
  deriving DecidableEq, Repr

structure MmulA where
  tout : Tok
  tin : Toks
  av : BitVec 3
  cv : BitVec 3
  rows : BitVec 12
  aty : ATy
  add : Bool
  sw : Bool
  deriving DecidableEq, Repr

/-- Die split of a copy (R234). -/
inductive DSel where
  | none | outer | dim0
  deriving DecidableEq, Repr

structure CopyA where
  tout : Tok
  tin : Toks
  tn : BitVec 8
  ds : BitVec 6
  xo : Reg
  xb : Reg
  dsel : DSel
  deriving DecidableEq, Repr

structure McastA where
  tout : Tok
  tv : BitVec 2
  t0 : Tok
  t1 : Tok
  tn : BitVec 8
  ds : BitVec 6
  xo : Reg
  xb : Reg
  xm : Reg
  deriving DecidableEq, Repr

/-- What CSTAT reads (R244). -/
inductive CStatK where
  | tile (t : BitVec 8)
  | desc (d : BitVec 6)
  | split
  | copy
  deriving DecidableEq, Repr

/-- Scopes of synchronizing operations (R254, R322). -/
inductive Scope where
  | die | gang | part | mod | pod | sys
  deriving DecidableEq, Repr

/-- Conditions of packets and SIGWAIT (R276, R322). -/
inductive PCond where
  | eq | ne | lt | ge | gt | le
  deriving DecidableEq, Repr

/-- The quadrants FELOG and MSTAT select (R340). -/
inductive QSel where
  | one (q : BitVec 2)
  | all
  deriving DecidableEq, Repr

/-- Operations of RED (R404). -/
inductive YRed where
  | or | and | isum | fsum | fmax
  deriving DecidableEq, Repr

structure MaskA where
  xa : Reg
  qm : BitVec 4
  kd : Bool
  kq : Bool
  deriving DecidableEq, Repr

/-- Axes of PERM (R408). -/
inductive Axis where
  | row | col | all
  deriving DecidableEq, Repr

/-- Patterns of PERM (R408). -/
inductive PermPat where
  | shift (ax : Axis)
  | rot (ax : Axis)
  | xor
  | bcast
  | trans
  deriving DecidableEq, Repr

structure PermA where
  pat : PermPat
  gw : BitVec 3
  amt : BitVec 7
  ss : BitVec 9
  nsm1 : BitVec 9
  deriving DecidableEq, Repr

structure PermVA where
  pat : PermPat
  gw : BitVec 3
  amt : BitVec 7
  xs : Reg
  xt : Reg
  xn : Reg
  tout : Tok
  deriving DecidableEq, Repr

/-- The sign selection of FFMA: negate the product, negate the addend (R108). -/
structure FmaSign where
  negP : Bool
  negC : Bool
  deriving DecidableEq, Repr

/-- The scope field of a packet (R275). -/
inductive PScope where
  | part | mod | pod | sys
  deriving DecidableEq, Repr

/-- The packet header (R275). -/
structure PHdr where
  csig : BitVec 56
  tag : BitVec 32
  irq : Bool
  scope : PScope
  crec : Bool
  ord : Bool
  deriving DecidableEq, Repr

/-- One signal of a BARRIER (R276). -/
structure BarSig where
  cnd : PCond
  addr : BitVec 56
  val : BitVec 64
  deriving DecidableEq, Repr

structure LaunchP where
  khdr : BitVec 56
  args : BitVec 56
  part : BitVec 7
  qmask : BitVec 4
  iinv : Bool
  deriving DecidableEq, Repr

structure GangP where
  khdr : BitVec 56
  args : BitVec 56
  multi : Bool
  pmask : BitVec 128
  qmask : BitVec 4
  iinv : Bool
  deriving DecidableEq, Repr

structure BarrierP where
  s0 : BarSig
  s1 : BarSig
  s2 : BarSig
  v : BitVec 3
  deriving DecidableEq, Repr

structure CopyP where
  src : BitVec 56
  dst : BitVec 56
  part : BitVec 7
  len : BitVec 40
  deriving DecidableEq, Repr

structure PredP where
  addr : BitVec 56
  cnd : PCond
  count : BitVec 8
  val : BitVec 64
  deriving DecidableEq, Repr

/-- Levels of CANCEL (R276). -/
inductive CLevel where
  | launch | graph | phase | job
  deriving DecidableEq, Repr

/-- The agent of an outstanding global store (R249). -/
inductive Agent where
  | seq (ctx : Nat)
  | die (p : Nat)
  deriving DecidableEq, Repr

/-- A unit of a die under SEC-DED (R375). -/
inductive DieUnit where
  /-- a predicate p1 to p15 of a lane, by position -/
  | pred (lane p : Nat)
  | view (n : Nat)
  | dc (n : Nat)
  | tok (n : Nat)
  | tile (n : Nat)
  | desc (n : Nat)
  deriving DecidableEq, Repr

/-- A unit of a sequencer under SEC-DED (R375); the sequencer shadow holds the same units while the context is saved. -/
inductive SeqUnit where
  | x (n : Reg)
  | q (n : QIdx)
  | loops
  /-- 8 bytes of SLM, by number -/
  | slm (n : Nat)
  /-- the packet of a bundle in the resend buffer -/
  | resend (bsn : BitVec 48)
  deriving DecidableEq, Repr

/-- How an access of the host arrives: of the non-secure world, or of the secure world under IDE or without it (R439). -/
inductive HostAcc where
  | plain | secIde | secBare
  deriving DecidableEq, Repr

/-- An access of the host to a queue or an address (R439). -/
structure HostTo where
  via : HostAcc
  n : Nat
  deriving DecidableEq, Repr

/-- A word that the host writes (R439). -/
structure HostW where
  via : HostAcc
  w : W64
  deriving DecidableEq, Repr

/-- The key of an accession (R427). -/
structure AccKey where
  job : Nat
  gid : Nat
  seq : Nat
  deriving DecidableEq, Repr

/-- A message with an accession number and the epoch of its sender (R428, R431). -/
structure GrantMsg where
  num : Nat
  ep : BitVec 16
  deriving DecidableEq, Repr

/-- A message that the other modules' members have started: their descriptors by rank, and the epoch (R428, R431). -/
structure LiveMsg where
  remote : List (Nat × BitVec 512)
  ep : BitVec 16
  deriving DecidableEq, Repr

/-- The modules that Cimus designates as the primary Registrar and as its backup (R418, R431). -/
structure Designation where
  primary : Nat
  backup : Nat
  deriving DecidableEq, Repr

/-- Where a stored error strikes (R375, R381). -/
inductive ErrAt where
  /-- An HBM stack or expander reports poison for the 64-byte line at a physical address. -/
  | mem (pa : Nat)
  /-- An uncorrectable error in a die's cache line, by the line's physical address. -/
  | cache (die pa : Nat)
  /-- Two bits of a 16-byte scratchpad granule, by its byte offset. -/
  | vault (die off : Nat)
  /-- Parity of one physical slice of one lane. -/
  | slice (die lane slice : Nat)
  /-- Parity of a quadrant's active plane. -/
  | plane (die quad : Nat)
  /-- Parity of a quadrant's shadow plane. -/
  | shadow (die quad : Nat)
  /-- Two bits of a register, token, tile entry or descriptor slot of a die. -/
  | unit (die : Nat) (u : DieUnit)
  /-- Two bits of a 16-byte granule of the system way that holds 32 spill slices of a lane, by lane and granule. -/
  | spill (die lane gran : Nat)
  /-- Two bits of the 32 bytes of the system way that hold an entry of a retry ring. -/
  | ring (die idx : Nat)
  /-- Two bits of a Vitrine line, by its global line number. -/
  | vit (die line : Nat)
  /-- A lockstep signature mismatch at the context's next bundle. -/
  | lockstep (ctx : Nat)
  /-- Two bits of a sequencer register, of its loop stack, of an SLM word or of a resend buffer entry. -/
  | seq (ctx : Nat) (u : SeqUnit)
  /-- An error that ECC or a retry corrects, in the unit of an error bank, with the address that its record holds. -/
  | corrected (bank : Nat) (w1 : BitVec 64)
  deriving DecidableEq, Repr

/-- The instructions and steps of the OX64: one constructor per row of spec/opcode_table.json. -/
inductive Instr where
  | noOperation
  -- S slot, integer (R98 to R103)
  | add (xd xa xb : Reg)
  | sub (xd xa xb : Reg)
  | mul (xd xa xb : Reg)
  | mulh (xd xa xb : Reg)
  | mulhn (xd xa xb : Reg)
  | div (xd xa xb : Reg)
  | divn (xd xa xb : Reg)
  | rem (xd xa xb : Reg)
  | remn (xd xa xb : Reg)
  | and (xd xa xb : Reg)
  | or (xd xa xb : Reg)
  | xor (xd xa xb : Reg)
  | shl (xd xa xb : Reg)
  | shr (xd xa xb : Reg)
  | sra (xd xa xb : Reg)
  | min (xd xa xb : Reg)
  | max (xd xa xb : Reg)
  | minn (xd xa xb : Reg)
  | maxn (xd xa xb : Reg)
  | clz (xd xa : Reg)
  | popc (xd xa : Reg)
  | addi (xd xa : Reg) (imm : BitVec 32)
  | andi (xd xa : Reg) (imm : BitVec 32)
  | ori (xd xa : Reg) (imm : BitVec 32)
  | xori (xd xa : Reg) (imm : BitVec 32)
  | shiShl (xd xa : Reg) (imm : BitVec 32)
  | shiShr (xd xa : Reg) (imm : BitVec 32)
  | shiSra (xd xa : Reg) (imm : BitVec 32)
  | li (xd : Reg) (imm : BitVec 50)
  | lih (xd : Reg) (imm : BitVec 32)
  -- S slot, compares and predicates (R104 to R107)
  | cmp (qd : QIdx) (c : Cond) (xa xb : Reg)
  | cmpi (qd : QIdx) (c : Cond) (xa : Reg) (imm : BitVec 32)
  | sel (xd : Reg) (q : QIdx) (neg : Bool) (xa xb : Reg)
  | movqGet (xd : Reg) (qa : QIdx)
  | movqSet (qd : QIdx) (xa : Reg)
  | movqGetall (xd : Reg)
  | movqSetall (xa : Reg)
  | qop (f : QFn) (qd qa qb : QIdx)
  -- S slot, FP32 (R108 to R110)
  | fadd (rm : Rnd) (xd xa xb : Reg)
  | fsub (rm : Rnd) (xd xa xb : Reg)
  | fmul (rm : Rnd) (xd xa xb : Reg)
  | ffma (sg : FmaSign) (rm : Rnd) (xd xa xb xc : Reg)
  | fcmp (r : FRel) (qd : QIdx) (xa xb : Reg)
  | fcvt (k : FCvt) (sat : Bool) (rm : Rnd) (xd xa : Reg)
  -- S slot, memory (R111 to R115)
  | lds (sz : MSize) (sx : Bool) (xd xa : Reg) (imm : BitVec 32)
  | sts (sz : MSize) (xs xa : Reg) (imm : BitVec 32)
  | ldg (sz : MSize) (sx dev : Bool) (xd xa : Reg) (imm : BitVec 32)
  | stg (sz : MSize) (dev : Bool) (xs xa : Reg) (imm : BitVec 32)
  | amog (op : AOp) (four : Bool) (xd xa xb xc : Reg)
  | globalLoadReturn (ctx idx : Nat)
  -- S slot, control (R117 to R120)
  | br (c : Cond) (xa xb : Reg) (off : BitVec 30)
  | brq (q : QIdx) (neg : Bool) (off : BitVec 30)
  | call (xd : Reg) (off : BitVec 30)
  | callR (xd xa : Reg)
  | jmp (off : BitVec 30)
  | jmpR (xa : Reg)
  | ret (xa : Reg)
  | loop (xa : Reg) (off : BitVec 30)
  | exit (code : BitVec 16)
  -- trees and decode queue
  | treePacketArrival (ctx die : Nat)
  | dieBundleIssue (die : Nat)
  | creditReturn (ctx die : Nat)
  | storePerformed (a : Agent) (idx : Nat)
  | vectorResultWrite (die idx : Nat)
  -- V0 and V1 slots
  | vadd (a : V2)
  | vsub (a : V2)
  | vmul (a : V2)
  | vmulh (a : V2)
  | vdiv (a : V2)
  | vmin (a : V2)
  | vmax (a : V2)
  | vfma (a : V3)
  | vfms (a : V3)
  | vfnma (a : V3)
  | vadds (a : V2)
  | vsubs (a : V2)
  | vabs (a : V1)
  | vneg (a : V1)
  | vmov (a : V1)
  | vand (a : V2)
  | vor (a : V2)
  | vxor (a : V2)
  | vandn (a : V2)
  | vshl (a : V2)
  | vshr (a : V2)
  | vclz (a : V1)
  | vpopc (a : V1)
  | vcmp (a : VCmpA)
  | vsel (a : VSelA)
  | vcvt (a : VCvtA)
  | vrcp (a : V1)
  | vsqrt (a : V1)
  | vrsq (a : V1)
  | vexp2 (a : V1)
  | vlog2 (a : V1)
  | vtanh (a : V1)
  | vshuf (a : V2)
  | vrotr (a : VAxA)
  | vrotc (a : VAxA)
  | vbcr (a : VAxA)
  | vbcc (a : VAxA)
  | vredr (a : VRedA)
  | vredc (a : VRedA)
  | vidx (a : VIdxA)
  | pand (a : P2)
  | por (a : P2)
  | pxor (a : P2)
  | pnot (a : P1)
  | vladd (a : VLaddA)
  | vlrnd (a : VLrndA)
  | vlclr (pg : PIdx) (vd : BitVec 9)
  | vcond (a : VCondA)
  | vview (vw : BitVec 3) (xa : Reg)
  -- M slot
  | mlds (a : MldsA)
  | mldsComplete (die : Nat)
  | mswap
  | mzero
  | mmul (a : MmulA)
  | mmulRowDrain (die idx : Nat)
  -- LD and SD slots
  | vld (a : LMem)
  | vldx (a : LMem)
  | vldg (a : LMem)
  | vpref (a : VPrefA)
  | vldt (a : VLdtA)
  | fill (a : SpillA)
  | vst (a : LMem)
  | vstx (a : LMem)
  | vstg (a : LMem)
  | vamo (a : VAmoA)
  | spill (a : SpillA)
  | loadDataReturn (die idx : Nat)
  | remoteVaultReply (die idx : Nat)
  | translationWalkComplete (die vpage : Nat)
  -- C slot
  | cdesc (ds : BitVec 6) (slma : BitVec 12)
  | ccopyIn (a : CopyA)
  | ccopyOut (a : CopyA)
  | cmcast (a : McastA)
  | fillStart (die idx : Nat)
  | cmcastReadStart (die idx : Nat)
  | copyFillComplete (die idx : Nat)
  | copyDrainComplete (die idx : Nat)
  | tdef (tn : BitVec 8) (offs : BitVec 16) (size : BitVec 13) (swz keep : Bool)
  | trel (tn : BitVec 8)
  | tcfg (tn : BitVec 8) (swz : Bool)
  | cflush (tout : Tok) (tin : Toks) (inv : Bool)
  | cflushComplete (die idx : Nat)
  | csplit (nw : BitVec 5)
  | cstat (dc : BitVec 2) (k : CStatK)
  | cacheLineWriteback (die pa : Nat)
  -- Y slot
  | twait (tin : Toks)
  | bacq (shared : Bool) (region : BitVec 7)
  | bollardGrant (addr : Nat)
  | brel (region : BitVec 7)
  | bollardRelease (addr ctx : Nat)
  | bollardWriteback (addr : Nat)
  | fence (sc : Scope)
  | sigadd (sc : Scope) (xd xa xb : Reg)
  | sigst (sc : Scope) (xa xb : Reg)
  | sigwait (c : PCond) (sc : Scope) (xd xa xb : Reg)
  | sigwaitPollTimer (ctx : Nat)
  | enq (xd xa : Reg) (slma : BitVec 12)
  | yield
  | trap (code : BitVec 16)
  | mbox (xd xa xb : Reg)
  | mboxReply (xa xb : Reg)
  | eretReplay (xd xa : Reg)
  | eretSkip (xd xa : Reg)
  | rrfillRetry (xd xa : Reg)
  | rrfillData (xd xa xb : Reg)
  | felog (sel : QSel) (clr : Bool) (xd xe : Reg)
  | mstat (sel : QSel) (clr : Bool) (xd : Reg)
  | sysrd (xd : Reg) (addr : BitVec 12)
  | syswr (xa : Reg) (addr : BitVec 12)
  | rdv (tag : BitVec 16)
  | red (op : YRed) (xd : Reg) (dc : BitVec 2)
  | mask (a : MaskA)
  | perm (a : PermA)
  | permVault (a : PermVA)
  | permLockstep (ctx : Nat)
  | permDataWrite (ctx : Nat)
  | coll (xd : Reg) (tout : Tok) (tin : Toks) (slma : BitVec 12)
  | cwait (xd xa : Reg)
  | cwaitTest (xd xa : Reg)
  | ccancel (xd xa : Reg)
  | responseReport (ctx : Nat)
  | segmentCommit (ctx : Nat)
  | faultedDieRestore (die : Nat)
  | replayResend (ctx : Nat)
  | linkRetransmit (ctx failures bank : Nat)
  | faultFlagArrival (ctx : Nat)
  | stopArrival (die : Nat)
  | contextFrozen (ctx : Nat)
  | detachedCopyComplete (die idx : Nat)
  | contextSaveComplete (ctx : Nat)
  | contextStopped (ctx : Nat)
  -- the Landing
  | doorbell (q : HostTo) (v : W64)
  | queueMapWaiting
  | berthIdleTimeout (b : Nat)
  | packetFetch (b : Nat)
  | dispatchDecision
  | berthClassPromote (b : Nat)
  | nop (h : PHdr)
  | launch (h : PHdr) (p : LaunchP)
  | gang (h : PHdr) (p : GangP)
  | partitionObtained (task : Nat)
  | gangReserveTimeout (task : Nat)
  | graph (h : PHdr) (gaddr : BitVec 56) (nnode : BitVec 12)
  | graphNodeDispatch
  | barrier (h : PHdr) (p : BarrierP)
  | barrierPollTimer (b : Nat)
  | signal (h : PHdr) (saddr : BitVec 56) (store : Bool) (sval : W64)
  | copy (h : PHdr) (p : CopyP)
  | copyPacketComplete (task : Nat)
  | indirect (h : PHdr) (iaddr : BitVec 56) (icount : BitVec 16)
  | loopPacket (h : PHdr) (passes : BitVec 16) (lcount : BitVec 8)
  | pred (h : PHdr) (p : PredP)
  | fetchfence (h : PHdr)
  | event (h : PHdr) (payload : W64)
  | phase (h : PHdr)
  | cancel (h : PHdr) (ctag : BitVec 32) (lvl : CLevel) (kill : Bool)
  | timestamp (h : PHdr) (taddr : BitVec 56)
  | launchDrained (ctx : Nat)
  | launchCompletion (ctx : Nat)
  | eventRingSpace (part : Nat)
  | eventRingIrqCount (part : Nat)
  | eventRingIrqTimeout (part : Nat)
  -- the Curator
  | specRunStart (b : Nat)
  | specDiscardComplete (ctx : Nat)
  | cxlMemWrite (pa : HostTo) (bytes : List Byte)
  | cxlMemRead (pa : HostTo) (len : Nat)
  | storeAck (port dest n : Nat)
  -- the Registrar
  | accessionRequest (ctx idx : Nat)
  | accessionAssign (job gid seq : Nat)
  | grantArrival (job gid seq : Nat) (m : GrantMsg)
  | accessionLive (job gid seq : Nat) (m : LiveMsg)
  | collectiveComplete (key : AccKey) (remote : List (Nat × List Byte)) (fault : Bool) (others : List Nat)
  | cancelDecision (key : AccKey) (verdict : Option Nat) (ep : BitVec 16)
  | backupAck (n : Nat)
  | registrarHeartbeat
  | registrarFailover
  | epochAnnounce (epoch : BitVec 16)
  -- Cimus
  | svccmdKill (p : Nat)
  | svccmdPreempt (p : Nat)
  | svccmdRestore (p : Nat)
  | xinv (w : W64)
  | xinvComplete
  | trappendW1c (hi : Bool) (w : W64)
  | erbclr (w : W64)
  | clkctlWrite (w : W64)
  | clockRatioSwitch
  | pmodeWrite (w : W64)
  | pjobWrite (w : W64)
  | registerWrite (addr : BitVec 12) (w : W64)
  | bootgo (w : HostW)
  | imageVerifyDone
  | memoryPortLinkTrain (p cap : Nat)
  | memoryPortLinkDown (p : Nat)
  | attestationRequest (nonce : BitVec 512)
  | verticalBusRepair (die bank : Nat)
  | moduleReset
  | powerRemoval
  | throttlePoint
  | thermalTrip
  | throttlePulseRemoval (ctx : Nat)
  | cacheLineDrop (die pa : Nat)
  | storedError (e : ErrAt) (kind : BitVec 4) (syndrome : W64)
  | vyivoLinkDown (l : Nat)
  | hostPortLinkDown
  | hotClear
  | jobClose (job : Nat)
  | groupCreate (job gid : Nat) (members : List (Nat × Nat))
  | backupRegistrarDesignate (mid : Designation)
  | jobWideRegionSet (job entry : Nat) (e : BitVec 256)
  deriving DecidableEq, Repr

end Sys2Proof
end

