-- ==== Sys2Proof/Machine/Checks.lean ====
section
/-! DEFINITION. The rejection conditions of a slot that concern a decoded instruction (R68): reserved fields, functions,
widths, ranges and LACC alignment, and the codes of the enumerated fields (R33, R44, R73, R104). -/

namespace Sys2Proof

/-- The 4-bit type code (R33). -/
def ETy.code : ETy → Nat
  | .s4 => 0 | .s8 => 1 | .s16 => 2 | .s32 => 3 | .s64 => 4
  | .n4 => 5 | .n8 => 6 | .n16 => 7 | .n32 => 8 | .n64 => 9
  | .fp8a => 10 | .fp8b => 11 | .bf16 => 12 | .fp16 => 13 | .fp32 => 14

/-- The type of a code; 0b1111 is reserved (R33). -/
def ETy.ofCode : Nat → Option ETy
  | 0 => some .s4 | 1 => some .s8 | 2 => some .s16 | 3 => some .s32 | 4 => some .s64
  | 5 => some .n4 | 6 => some .n8 | 7 => some .n16 | 8 => some .n32 | 9 => some .n64
  | 10 => some .fp8a | 11 => some .fp8b | 12 => some .bf16 | 13 => some .fp16 | 14 => some .fp32
  | _ => none

/-- The width of a type in bits (R33). -/
def ETy.bits : ETy → Nat
  | .s4 | .n4 => 4
  | .s8 | .n8 | .fp8a | .fp8b => 8
  | .s16 | .n16 | .bf16 | .fp16 => 16
  | .s32 | .n32 | .fp32 => 32
  | .s64 | .n64 => 64

/-- S types (R34). -/
def ETy.isS : ETy → Bool
  | .s4 | .s8 | .s16 | .s32 | .s64 => true
  | _ => false

/-- F types: FP8A, FP8B, BF16, FP16, FP32 (R151). -/
def ETy.isF : ETy → Bool
  | .fp8a | .fp8b | .bf16 | .fp16 | .fp32 => true
  | _ => false

/-- I types: every S and N type (R151). -/
def ETy.isI (t : ETy) : Bool := !t.isF

/-- H types: FP32, BF16, FP16 (R151). -/
def ETy.isH : ETy → Bool
  | .fp32 | .bf16 | .fp16 => true
  | _ => false

/-- Slices of a WIDTH code (R73). -/
def Width.slices : Width → Nat
  | .w4 => 1 | .w8 => 2 | .w12 => 3 | .w16 => 4 | .w32 => 8 | .w64 => 16

/-- Bits of a WIDTH code (R73). -/
def Width.bits (w : Width) : Nat := 4 * w.slices

/-- The WIDTH code (R73). -/
def Width.code : Width → Nat
  | .w4 => 0 | .w8 => 1 | .w12 => 2 | .w16 => 3 | .w32 => 4 | .w64 => 5

/-- The width of a code; 0b110 is reserved and 0b111 special (R73). -/
def Width.ofCode : Nat → Option Width
  | 0 => some .w4 | 1 => some .w8 | 2 => some .w12 | 3 => some .w16 | 4 => some .w32 | 5 => some .w64
  | _ => none

/-- The rounding field (R44). -/
def Rnd.code : Rnd → Nat
  | .rne => 0 | .rtz => 1 | .rdn => 2 | .rup => 3 | .dyn => 4

def Rnd.ofCode : Nat → Option Rnd
  | 0 => some .rne | 1 => some .rtz | 2 => some .rdn | 3 => some .rup | 4 => some .dyn
  | _ => none

/-- Condition codes (R104). -/
def Cond.code : Cond → Nat
  | .eq => 0 | .ne => 1 | .lt => 2 | .ge => 3 | .ltn => 4 | .gen => 5

def Cond.ofCode : Nat → Option Cond
  | 0 => some .eq | 1 => some .ne | 2 => some .lt | 3 => some .ge | 4 => some .ltn | 5 => some .gen
  | _ => none

/-- Predicate functions (R107). -/
def QFn.code : QFn → Nat
  | .and => 0 | .or => 1 | .xor => 2 | .andn => 3 | .orn => 4 | .xnor => 5 | .not => 6

def QFn.ofCode : Nat → Option QFn
  | 0 => some .and | 1 => some .or | 2 => some .xor | 3 => some .andn | 4 => some .orn | 5 => some .xnor
  | 6 => some .not
  | _ => none

/-- FCMP relations (R109). -/
def FRel.code : FRel → Nat
  | .eq => 0 | .ne => 1 | .lt => 2 | .le => 3 | .un => 4

def FRel.ofCode : Nat → Option FRel
  | 0 => some .eq | 1 => some .ne | 2 => some .lt | 3 => some .le | 4 => some .un
  | _ => none

/-- FCVT kinds (R110). -/
def FCvt.code : FCvt → Nat
  | .s64fp32 => 0 | .n64fp32 => 1 | .s32fp32 => 2 | .n32fp32 => 3 | .fp32s64 => 4 | .fp32n64 => 5
  | .bf16fp32 => 6 | .fp16fp32 => 7 | .fp32bf16 => 8 | .fp32fp16 => 9

def FCvt.ofCode : Nat → Option FCvt
  | 0 => some .s64fp32 | 1 => some .n64fp32 | 2 => some .s32fp32 | 3 => some .n32fp32 | 4 => some .fp32s64
  | 5 => some .fp32n64 | 6 => some .bf16fp32 | 7 => some .fp16fp32 | 8 => some .fp32bf16 | 9 => some .fp32fp16
  | _ => none

/-- Access sizes (R111). -/
def MSize.code : MSize → Nat
  | .b1 => 0 | .b2 => 1 | .b4 => 2 | .b8 => 3

def MSize.ofCode : Nat → MSize
  | 0 => .b1 | 1 => .b2 | 2 => .b4 | _ => .b8

/-- The bytes of an access size (R111). -/
def MSize.bytes : MSize → Nat
  | .b1 => 1 | .b2 => 2 | .b4 => 4 | .b8 => 8

/-- Atomic operation codes (R114). -/
def AOp.code : AOp → Nat
  | .swap => 0 | .add => 1 | .and => 2 | .or => 3 | .xor => 4 | .min => 5 | .max => 6 | .minn => 7 | .maxn => 8
  | .cas => 9

def AOp.ofCode : Nat → Option AOp
  | 0 => some .swap | 1 => some .add | 2 => some .and | 3 => some .or | 4 => some .xor | 5 => some .min
  | 6 => some .max | 7 => some .minn | 8 => some .maxn | 9 => some .cas
  | _ => none

/-- VCMP relations (R158). -/
def VRel.code : VRel → Nat
  | .eq => 0 | .ne => 1 | .lt => 2 | .le => 3 | .gt => 4 | .ge => 5 | .un => 6

def VRel.ofCode : Nat → Option VRel
  | 0 => some .eq | 1 => some .ne | 2 => some .lt | 3 => some .le | 4 => some .gt | 5 => some .ge | 6 => some .un
  | _ => none

/-- VREDR and VREDC operations (R165). -/
def RedOp.code : RedOp → Nat
  | .add => 0 | .min => 1 | .max => 2 | .and => 3 | .or => 4 | .xor => 5

def RedOp.ofCode : Nat → Option RedOp
  | 0 => some .add | 1 => some .min | 2 => some .max | 3 => some .and | 4 => some .or | 5 => some .xor
  | _ => none

/-- VCOND operations (R170). -/
def CondOp.code : CondOp → Nat
  | .or => 0 | .and => 1 | .isum => 2 | .fmax => 3 | .fmin => 4 | .fsum => 5

def CondOp.ofCode : Nat → Option CondOp
  | 0 => some .or | 1 => some .and | 2 => some .isum | 3 => some .fmax | 4 => some .fmin | 5 => some .fsum
  | _ => none

/-- Weight types (R177). -/
def WTy.code : WTy → Nat
  | .bf16 => 0 | .fp8a => 1 | .fp8b => 2 | .g4 => 3 | .g3 => 4

def WTy.ofCode : Nat → Option WTy
  | 0 => some .bf16 | 1 => some .fp8a | 2 => some .fp8b | 3 => some .g4 | 4 => some .g3
  | _ => none

/-- G4 and G3 have a scale array (R42). -/
def WTy.grouped : WTy → Bool
  | .g4 | .g3 => true
  | _ => false

/-- Activation types (R177). -/
def ATy.code : ATy → Nat
  | .bf16 => 0 | .fp8a => 1 | .fp8b => 2

def ATy.ofCode : Nat → Option ATy
  | 0 => some .bf16 | 1 => some .fp8a | 2 => some .fp8b
  | _ => none

/-- Die split codes (R234). -/
def DSel.code : DSel → Nat
  | .none => 0 | .outer => 1 | .dim0 => 2

def DSel.ofCode : Nat → Option DSel
  | 0 => some .none | 1 => some .outer | 2 => some .dim0
  | _ => Option.none

/-- Scope codes (R322). -/
def Scope.code : Scope → Nat
  | .die => 0 | .gang => 1 | .part => 2 | .mod => 3 | .pod => 4 | .sys => 5

def Scope.ofCode : Nat → Option Scope
  | 0 => some .die | 1 => some .gang | 2 => some .part | 3 => some .mod | 4 => some .pod | 5 => some .sys
  | _ => none

/-- Condition codes of packets and SIGWAIT (R276). -/
def PCond.code : PCond → Nat
  | .eq => 0 | .ne => 1 | .lt => 2 | .ge => 3 | .gt => 4 | .le => 5

def PCond.ofCode : Nat → Option PCond
  | 0 => some .eq | 1 => some .ne | 2 => some .lt | 3 => some .ge | 4 => some .gt | 5 => some .le
  | _ => none

/-- The quadrant selection of FELOG and MSTAT (R340). -/
def QSel.code : QSel → Nat
  | .one q => q.toNat
  | .all => 4

def QSel.ofCode (n : Nat) : Option QSel :=
  if n < 4 then some (.one (BitVec.ofNat 2 n)) else if n == 4 then some .all else none

/-- RED operations (R404). -/
def YRed.code : YRed → Nat
  | .or => 0 | .and => 1 | .isum => 2 | .fsum => 3 | .fmax => 4

def YRed.ofCode : Nat → Option YRed
  | 0 => some .or | 1 => some .and | 2 => some .isum | 3 => some .fsum | 4 => some .fmax
  | _ => none

/-- The axis of SHIFT and ROT (R408). -/
def Axis.code : Axis → Nat
  | .row => 0 | .col => 1 | .all => 2

def Axis.ofCode : Nat → Option Axis
  | 0 => some .row | 1 => some .col | 2 => some .all
  | _ => none

/-- PAT and AX of a PERM pattern (R408). -/
def PermPat.codes : PermPat → Nat × Nat
  | .shift a => (0, a.code)
  | .rot a => (1, a.code)
  | .xor => (2, 0)
  | .bcast => (3, 0)
  | .trans => (4, 0)

/-- Packet scope codes (R275). -/
def PScope.code : PScope → Nat
  | .part => 0 | .mod => 1 | .pod => 2 | .sys => 3

def PScope.ofCode : Nat → PScope
  | 0 => .part | 1 => .mod | 2 => .pod | _ => .sys

/-- CANCEL levels (R276). -/
def CLevel.code : CLevel → Nat
  | .launch => 1 | .graph => 2 | .phase => 3 | .job => 4

def CLevel.ofCode : Nat → Option CLevel
  | 1 => some .launch | 2 => some .graph | 3 => some .phase | 4 => some .job
  | _ => none

/-! ### Rejection conditions (R68); `true` means the condition does not reject -/

/-- A slice operand lies within the file (R74). -/
def Dst.inFile (d : Dst) : Bool := d.start.toNat + d.w.slices ≤ 512

/-- A source operand lies within the file; special operands always do (R74, R75). -/
def Opnd.inFile : Opnd → Bool
  | .sl d => d.inFile
  | _ => true

/-- A slice source is no wider than n bits; no width check applies to a special source (R68, R75). -/
def Opnd.fits (o : Opnd) (n : Nat) : Bool :=
  match o with
  | .sl d => d.w.bits ≤ n
  | _ => true

/-- A special operand (R75). -/
def Opnd.isSpecial : Opnd → Bool
  | .sl _ => false
  | _ => true

/-- A LACC lies within the file (R76). -/
def laccIn (st : BitVec 9) : Bool := st.toNat ≤ 428
/-- A LACC starts at a multiple of 4 (R76). -/
def laccAligned (st : BitVec 9) : Bool := st.toNat % 4 == 0

/-- Tokens named where TV is clear must be zero (R177). -/
def Toks.ok (t : Toks) : Bool :=
  (t.tv.getLsbD 0 || t.t0 == 0) && (t.tv.getLsbD 1 || t.t1 == 0) && (t.tv.getLsbD 2 || t.t2 == 0)

/-- The data operand of a lane access is 8, 16, 32 or 64 bits wide (R222). -/
def Dst.dataOk (d : Dst) : Bool :=
  match d.w with
  | .w4 | .w12 => false
  | _ => true

def V1.rangeOk (a : V1) : Bool := a.vd.inFile && a.va.inFile
def V2.rangeOk (a : V2) : Bool := a.vd.inFile && a.va.inFile && a.vb.inFile
def V3.rangeOk (a : V3) : Bool := a.vd.inFile && a.va.inFile && a.vb.inFile && a.vc.inFile
def V1.widthOk (a : V1) : Bool := a.va.fits a.ty.bits
def V2.widthOk (a : V2) : Bool := a.va.fits a.ty.bits && a.vb.fits a.ty.bits
def V3.widthOk (a : V3) : Bool := a.va.fits a.ty.bits && a.vb.fits a.ty.bits && a.vc.fits a.ty.bits
def LMem.rangeOk (a : LMem) : Bool := a.vd.inFile && a.vi.inFile
def VAxA.rangeOk (a : VAxA) : Bool := a.vd.inFile && a.va.inFile

/-- The column axis takes amounts 0 to 15 (R162). -/
def Amt.colOk : Amt → Bool
  | .imm n => n.toNat < 16
  | _ => true

/-- The mask of XOR and the index of BCAST are 0 to 63; TRANS takes none (R408). -/
def PermPat.amtFnOk (p : PermPat) (amt : BitVec 7) : Bool :=
  match p with
  | .xor | .bcast => amt.toNat < 64
  | _ => true

def PermPat.amtRsvOk (p : PermPat) (amt : BitVec 7) : Bool :=
  match p with
  | .trans => amt == 0
  | _ => true

/-- No reserved field, unused operand field or must-be-zero bit is nonzero (FIELD_RSV, R68). -/
def Instr.rsvOk : Instr → Bool
  | .qop f _ _ qb => f != .not || qb == 0
  | .lds sz sx _ _ _ => !(sx && sz == .b8)
  | .ldg sz sx _ _ _ _ => !(sx && sz == .b8)
  | .amog op _ _ _ _ xc => op == .cas || xc == 0
  | .vrotc a => a.amt.colOk
  | .vbcc a => a.amt.colOk
  | .mlds a => a.tin.ok && (a.wt.grouped || a.xs == 0)
  | .mmul a => a.tin.ok
  | .vld a => !a.dev
  | .vldx a => !a.dev
  | .vst a => !a.dev
  | .vstx a => !a.dev
  | .ccopyIn a => a.tin.ok
  | .ccopyOut a => a.tin.ok
  | .cmcast a => (a.tv.getLsbD 0 || a.t0 == 0) && (a.tv.getLsbD 1 || a.t1 == 0)
  | .cflush _ tin _ => tin.ok
  | .twait tin => tin.ok
  | .mask a => (!a.kd || a.xa == 0) && (!a.kq || a.qm == 0)
  | .perm a => a.pat.amtRsvOk a.amt
  | .permVault a => a.pat.amtRsvOk a.amt
  | .coll _ _ tin _ => tin.ok
  | _ => true

/-- Every type, function and enumerated field holds a value its instruction defines (FUNCTION, R68). -/
def Instr.fnOk : Instr → Bool
  | .vmulh a => a.ty.isI
  | .vdiv a => a.ty.isI || a.ty.isH
  | .vadds a => a.ty.isI
  | .vsubs a => a.ty.isI
  | .vshl a => a.ty.isI
  | .vshr a => a.ty.isI
  | .vclz a => a.ty.isI
  | .vpopc a => a.ty.isI
  | .vcmp a => a.rel != .un || a.ty.isF
  | .vrcp a => a.ty.isH
  | .vsqrt a => a.ty.isH
  | .vrsq a => a.ty.isH
  | .vexp2 a => a.ty.isH
  | .vlog2 a => a.ty.isH
  | .vtanh a => a.ty.isH
  | .vredr a => a.ty.isI || (a.op == .add || a.op == .min || a.op == .max)
  | .vredc a => a.ty.isI || (a.op == .add || a.op == .min || a.op == .max)
  | .vidx a => a.ty.isI
  | .vcond a =>
    match a.op with
    | .or | .and => true
    | .isum => a.ty.isI
    | _ => a.ty.isF
  | .mlds a => !(a.t && a.wt.grouped)
  | .vld a => a.vd.dataOk && a.vi.isSpecial
  | .vldx a => a.vd.dataOk
  | .vldg a => a.vd.dataOk
  | .vst a => a.vd.dataOk && a.vi.isSpecial
  | .vstx a => a.vd.dataOk
  | .vstg a => a.vd.dataOk
  | .vamo a => (a.vs.w == .w32 || a.vs.w == .w64) && a.vd.w == a.vs.w
  | .tdef _ _ size _ _ => 1 ≤ size.toNat && size.toNat ≤ 4096
  | .twait tin => tin.tv != 0
  | .bacq _ r => r != 127
  | .brel r => r != 127
  | .sigadd sc _ _ _ => sc != .die
  | .sigst sc _ _ => sc != .die
  | .sigwait _ sc _ _ _ => sc != .die
  | .felog _ _ xd xe => !(xd == xe && xd != 0)
  | .mask a => !(a.kd && a.kq)
  | .perm a => a.gw != 7 && a.pat.amtFnOk a.amt
  | .permVault a => a.gw != 7 && a.pat.amtFnOk a.amt
  | _ => true

/-- No slice source is wider than its operand position admits (WIDTH, R68, R223). -/
def Instr.widthOk : Instr → Bool
  | .vadd a => a.widthOk
  | .vsub a => a.widthOk
  | .vmul a => a.widthOk
  | .vmulh a => a.widthOk
  | .vdiv a => a.widthOk
  | .vmin a => a.widthOk
  | .vmax a => a.widthOk
  | .vfma a => a.widthOk
  | .vfms a => a.widthOk
  | .vfnma a => a.widthOk
  | .vadds a => a.widthOk
  | .vsubs a => a.widthOk
  | .vabs a => a.widthOk
  | .vneg a => a.widthOk
  | .vmov a => a.widthOk
  | .vand a => a.widthOk
  | .vor a => a.widthOk
  | .vxor a => a.widthOk
  | .vandn a => a.widthOk
  | .vshl a => a.widthOk
  | .vshr a => a.widthOk
  | .vclz a => a.widthOk
  | .vpopc a => a.widthOk
  | .vcmp a => a.va.fits a.ty.bits && a.vb.fits a.ty.bits
  | .vsel a => a.va.fits a.ty.bits && a.vb.fits a.ty.bits
  | .vcvt a => a.va.fits a.ts.bits
  | .vrcp a => a.widthOk
  | .vsqrt a => a.widthOk
  | .vrsq a => a.widthOk
  | .vexp2 a => a.widthOk
  | .vlog2 a => a.widthOk
  | .vtanh a => a.widthOk
  | .vshuf a => a.va.fits a.ty.bits && a.vb.fits 16
  | .vrotr a => a.va.fits a.ty.bits
  | .vrotc a => a.va.fits a.ty.bits
  | .vbcr a => a.va.fits a.ty.bits
  | .vbcc a => a.va.fits a.ty.bits
  | .vredr a => a.va.fits a.ty.bits
  | .vredc a => a.va.fits a.ty.bits
  | .vladd a =>
    match a.src with
    | .val ty o => o.fits ty.bits
    | .lacc _ => true
  | .vcond a => a.va.fits a.ty.bits
  | .vld a => a.vi.fits 32
  | .vldx a => a.vi.fits 32
  | .vldg a => a.vi.fits 32
  | .vpref a => a.vi.fits 32
  | .vldt a => a.vi.fits 32
  | .vst a => a.vi.fits 32
  | .vstx a => a.vi.fits 32
  | .vstg a => a.vi.fits 32
  | .vamo a => a.vi.fits 32
  | _ => true

/-- The compare operand of a CAS VAMO ends at or below slice 511 (R232). -/
def VAmoA.casIn (a : VAmoA) : Bool := a.op != .cas || a.vs.start.toNat + 2 * a.vs.w.slices ≤ 512

/-- Every slice range lies within the slice file (RANGE, R74, R76, R231). -/
def Instr.rangeOk : Instr → Bool
  | .vadd a => a.rangeOk
  | .vsub a => a.rangeOk
  | .vmul a => a.rangeOk
  | .vmulh a => a.rangeOk
  | .vdiv a => a.rangeOk
  | .vmin a => a.rangeOk
  | .vmax a => a.rangeOk
  | .vfma a => a.rangeOk
  | .vfms a => a.rangeOk
  | .vfnma a => a.rangeOk
  | .vadds a => a.rangeOk
  | .vsubs a => a.rangeOk
  | .vabs a => a.rangeOk
  | .vneg a => a.rangeOk
  | .vmov a => a.rangeOk
  | .vand a => a.rangeOk
  | .vor a => a.rangeOk
  | .vxor a => a.rangeOk
  | .vandn a => a.rangeOk
  | .vshl a => a.rangeOk
  | .vshr a => a.rangeOk
  | .vclz a => a.rangeOk
  | .vpopc a => a.rangeOk
  | .vcmp a => a.va.inFile && a.vb.inFile
  | .vsel a => a.vd.inFile && a.va.inFile && a.vb.inFile
  | .vcvt a => a.vd.inFile && a.va.inFile
  | .vrcp a => a.rangeOk
  | .vsqrt a => a.rangeOk
  | .vrsq a => a.rangeOk
  | .vexp2 a => a.rangeOk
  | .vlog2 a => a.rangeOk
  | .vtanh a => a.rangeOk
  | .vshuf a => a.rangeOk
  | .vrotr a => a.rangeOk
  | .vrotc a => a.rangeOk
  | .vbcr a => a.rangeOk
  | .vbcc a => a.rangeOk
  | .vredr a => a.vd.inFile && a.va.inFile
  | .vredc a => a.vd.inFile && a.va.inFile
  | .vidx a => a.vd.inFile
  | .vladd a =>
    laccIn a.vd && laccIn a.va &&
      (match a.src with
       | .val _ o => o.inFile
       | .lacc st => laccIn st)
  | .vlrnd a => a.vd.inFile && laccIn a.va
  | .vlclr _ vd => laccIn vd
  | .vcond a => a.va.inFile
  | .vld a => a.rangeOk
  | .vldx a => a.rangeOk
  | .vldg a => a.rangeOk
  | .vpref a => a.vi.inFile
  | .vldt a => (Dst.mk a.start .w16).inFile && a.vi.inFile
  | .fill a => a.ss.toNat + a.nsm1.toNat ≤ 511
  | .vst a => a.rangeOk
  | .vstx a => a.rangeOk
  | .vstg a => a.rangeOk
  | .vamo a => a.vd.inFile && a.vs.inFile && a.vi.inFile && a.casIn
  | .spill a => a.ss.toNat + a.nsm1.toNat ≤ 511
  | .perm a => a.ss.toNat + a.nsm1.toNat ≤ 511
  | _ => true

/-- Every LACC operand starts at a multiple of 4 (LACC_ALIGN, R76). -/
def Instr.alignOk : Instr → Bool
  | .vladd a =>
    laccAligned a.vd && laccAligned a.va &&
      (match a.src with
       | .val _ _ => true
       | .lacc st => laccAligned st)
  | .vlrnd a => laccAligned a.va
  | .vlclr _ vd => laccAligned vd
  | _ => true

/-- The reason code of a slot's rejection, the lowest that applies; the arguments say which conditions hold (R68, R69). -/
def rejCode (rsv fn wd rg al : Bool) : Option Nat :=
  if rsv then some 4 else if fn then some 5 else if wd then some 6 else if rg then some 7 else if al then some 8
  else none

end Sys2Proof
end

