-- ==== Sys2Proof/WellFormed.lean ====
section
/-! DEFINITION. Well-formed instructions: those a bundle can carry without being rejected for a slot of its own (R68).
An event or a packet is always well formed here: a packet's ranges are checked when it is dispatched (R275). -/

namespace Sys2Proof

/-- No rejection condition of R68 that concerns this instruction alone holds. -/
def Instr.wf (i : Instr) : Bool := i.rsvOk && i.fnOk && i.widthOk && i.rangeOk && i.alignOk

end Sys2Proof
end

