-- ==== Sys2Proof/Decode.lean ====
section
/-! DEFINITION. Decoding bundles and packets (R62 to R81, R149 to R151, R177, R225, R234, R275, R276, R321 to R323,
R403 to R408, R423, R425, R426), total on any bits, with the reason of every rejection, and the encoder beside it. -/

namespace Sys2Proof

/-! ### Fields -/

/-- Bits lo + w − 1 : lo of a slot field. -/
def fld (f : SlotBits) (lo w : Nat) : BitVec w := BitVec.ofNat w (f.toNat / 2 ^ lo)

/-- Bits hi : lo of a slot field as a number. -/
def fldN (f : SlotBits) (hi lo : Nat) : Nat := f.toNat / 2 ^ lo % 2 ^ (hi + 1 - lo)

/-- Some bit of hi : lo is nonzero. -/
def nz (f : SlotBits) (hi lo : Nat) : Bool := fldN f hi lo != 0

/-- A decoded field and whether decoding it gave reason FUNCTION or WIDTH. -/
structure Fld (α : Type) where
  val : α
  fn : Bool := false
  wd : Bool := false

/-- An enumerated field: an undefined value gives FUNCTION (R68). -/
def enumF {α : Type} (o : Option α) (d : α) : Fld α :=
  match o with
  | some a => { val := a }
  | none => { val := d, fn := true }

/-- A source operand field (R73, R75). A field that is no operand gives WIDTH. -/
def srcF (f : SlotBits) (lo : Nat) : Fld Opnd :=
  let start := fldN f (lo + 11) (lo + 3)
  let n := start % 64
  match Width.ofCode (fldN f (lo + 2) lo) with
  | some w => { val := .sl ⟨fld f (lo + 3) 9, w⟩ }
  | none =>
    if fldN f (lo + 2) lo == 6 then { val := .lane, wd := true }
    else match start / 64 with
    | 0 => { val := .x (fld f (lo + 3) 6) }
    | 1 => { val := .lane, wd := n != 0 }
    | 2 => { val := .row, wd := n != 0 }
    | 3 => { val := .col, wd := n != 0 }
    | 4 => { val := .quad, wd := n != 0 }
    | 5 => { val := .die, wd := n != 0 }
    | 6 => { val := .c (fld f (lo + 3) 6) }
    | _ => { val := .lane, wd := true }

/-- A destination field: reserved and special widths give WIDTH (R68, R222). -/
def dstF (f : SlotBits) (lo : Nat) (dflt : Width) : Fld Dst :=
  match Width.ofCode (fldN f (lo + 2) lo) with
  | some w => { val := ⟨fld f (lo + 3) 9, w⟩ }
  | none => { val := ⟨0, dflt⟩, wd := true }

/-- The 12-bit field of an operand (R73, R75). -/
def Dst.enc (d : Dst) : Nat := d.start.toNat * 8 + d.w.code

/-- The 12-bit field of a source operand (R75). -/
def Opnd.enc : Opnd → Nat
  | .sl d => d.enc
  | .x r => r.toNat * 8 + 7
  | .lane => 64 * 8 + 7
  | .row => 128 * 8 + 7
  | .col => 192 * 8 + 7
  | .quad => 256 * 8 + 7
  | .die => 320 * 8 + 7
  | .c n => (384 + n.toNat) * 8 + 7

/-- Ends the decoding of a slot: the reason of the lowest condition that holds, or the instruction (R69). -/
def fin (rsv fn wd : Bool) (i : Instr) : Except Nat Instr :=
  match rejCode (rsv || !i.rsvOk) (fn || !i.fnOk) (wd || !i.widthOk) (!i.rangeOk) (!i.alignOk) with
  | some r => .error r
  | none => .ok i

def b2n (b : Bool) : Nat := if b then 1 else 0

/-! ### The S slot (R79, R80) -/

/-- SR instructions with FN zero and no XC. -/
def decSR2 (f : SlotBits) (mk : Reg → Reg → Reg → Instr) : Except Nat Instr :=
  fin (nz f 43 36 || nz f 29 0) false false (mk (fld f 50 6) (fld f 44 6) (fld f 30 6))

/-- CLZ and POPC: XB is zero too. -/
def decSR1 (f : SlotBits) (mk : Reg → Reg → Instr) : Except Nat Instr :=
  fin (nz f 43 0) false false (mk (fld f 50 6) (fld f 44 6))

/-- SI instructions with FN zero. -/
def decSI (f : SlotBits) (mk : Reg → Reg → BitVec 32 → Instr) : Except Nat Instr :=
  fin (nz f 43 32) false false (mk (fld f 50 6) (fld f 44 6) (fld f 0 32))

/-- FADD, FSUB, FMUL (R108). -/
def decFP (f : SlotBits) (mk : Rnd → Reg → Reg → Reg → Instr) : Except Nat Instr :=
  let rm := enumF (Rnd.ofCode (fldN f 38 36)) .rne
  fin (nz f 43 39 || nz f 29 0) rm.fn false (mk rm.val (fld f 50 6) (fld f 44 6) (fld f 30 6))

/-- Decodes a present S slot (R80). -/
def decodeS (f : SlotBits) : Except Nat Instr :=
  let xd : Reg := fld f 50 6
  let xa : Reg := fld f 44 6
  let xb : Reg := fld f 30 6
  let imm : BitVec 32 := fld f 0 32
  let off : BitVec 30 := fld f 0 30
  let sz := MSize.ofCode (fldN f 37 36)
  let cond := enumF (Cond.ofCode (fldN f 39 36)) .eq
  match fldN f 61 56 with
  | 0x01 => decSR2 f .add
  | 0x02 => decSR2 f .sub
  | 0x03 => decSR2 f .mul
  | 0x04 => decSR2 f .mulh
  | 0x05 => decSR2 f .mulhn
  | 0x06 => decSR2 f .div
  | 0x07 => decSR2 f .divn
  | 0x08 => decSR2 f .rem
  | 0x09 => decSR2 f .remn
  | 0x0A => decSR2 f .and
  | 0x0B => decSR2 f .or
  | 0x0C => decSR2 f .xor
  | 0x0D => decSR2 f .shl
  | 0x0E => decSR2 f .shr
  | 0x0F => decSR2 f .sra
  | 0x10 => decSR2 f .min
  | 0x11 => decSR2 f .max
  | 0x12 => decSR2 f .minn
  | 0x13 => decSR2 f .maxn
  | 0x14 => decSR1 f .clz
  | 0x15 => decSR1 f .popc
  | 0x18 => decSI f .addi
  | 0x19 => decSI f .andi
  | 0x1A => decSI f .ori
  | 0x1B => decSI f .xori
  | 0x1C =>
    let rsv := nz f 35 32
    match fldN f 43 36 with
    | 0 => fin rsv false false (.shiShl xd xa imm)
    | 1 => fin rsv false false (.shiShr xd xa imm)
    | 2 => fin rsv false false (.shiSra xd xa imm)
    | _ => fin rsv true false (.shiShl xd xa imm)
  | 0x1D => fin false false false (.li xd (fld f 0 50))
  | 0x1E => fin (nz f 49 32) false false (.lih xd imm)
  | 0x20 => fin (nz f 55 53 || nz f 43 40 || nz f 29 0) cond.fn false (.cmp (fld f 50 3) cond.val xa xb)
  | 0x21 => fin (nz f 55 53 || nz f 43 40 || nz f 35 32) cond.fn false (.cmpi (fld f 50 3) cond.val xa imm)
  | 0x22 => fin (nz f 43 40 || nz f 29 0) false false (.sel xd (fld f 36 3) (nz f 39 39) xa xb)
  | 0x23 =>
    let rsv := nz f 35 0
    match fldN f 43 36 with
    | 0 => fin (rsv || nz f 49 47) false false (.movqGet xd (fld f 44 3))
    | 1 => fin (rsv || nz f 55 53) false false (.movqSet (fld f 50 3) xa)
    | 2 => fin (rsv || nz f 49 44) false false (.movqGetall xd)
    | 3 => fin (rsv || nz f 55 50) false false (.movqSetall xa)
    | _ => fin rsv true false (.movqGetall xd)
  | 0x24 =>
    let fn := enumF (QFn.ofCode (fldN f 38 36)) .and
    fin (nz f 55 53 || nz f 49 47 || nz f 43 39 || nz f 35 33 || nz f 29 0) fn.fn false
      (.qop fn.val (fld f 50 3) (fld f 44 3) (fld f 30 3))
  | 0x28 => decFP f .fadd
  | 0x29 => decFP f .fsub
  | 0x2A => decFP f .fmul
  | 0x2B =>
    let rm := enumF (Rnd.ofCode (fldN f 38 36)) .rne
    fin (nz f 43 41 || nz f 23 0) rm.fn false
      (.ffma ⟨nz f 40 40, nz f 39 39⟩ rm.val xd xa xb (fld f 24 6))
  | 0x2C =>
    let r := enumF (FRel.ofCode (fldN f 38 36)) .eq
    fin (nz f 55 53 || nz f 43 39 || nz f 29 0) r.fn false (.fcmp r.val (fld f 50 3) xa xb)
  | 0x2D =>
    let k := enumF (FCvt.ofCode (fldN f 43 40)) .s64fp32
    let rm := enumF (Rnd.ofCode (fldN f 38 36)) .rne
    fin (nz f 35 0) (k.fn || rm.fn) false (.fcvt k.val (nz f 39 39) rm.val xd xa)
  | 0x30 => fin (nz f 43 39 || nz f 35 32) false false (.lds sz (nz f 38 38) xd xa imm)
  | 0x31 => fin (nz f 43 38 || nz f 35 32) false false (.sts sz xd xa imm)
  | 0x32 => fin (nz f 43 40 || nz f 35 32) false false (.ldg sz (nz f 38 38) (nz f 39 39) xd xa imm)
  | 0x33 => fin (nz f 43 40 || nz f 38 38 || nz f 35 32) false false (.stg sz (nz f 39 39) xd xa imm)
  | 0x34 =>
    let op := enumF (AOp.ofCode (fldN f 39 36)) .swap
    fin (nz f 43 41 || nz f 23 0) op.fn false (.amog op.val (nz f 40 40) xd xa xb (fld f 24 6))
  | 0x38 => fin (nz f 55 50 || nz f 43 40) cond.fn false (.br cond.val xa xb off)
  | 0x39 => fin (nz f 55 44 || nz f 43 40 || nz f 35 30) false false (.brq (fld f 36 3) (nz f 39 39) off)
  | 0x3A =>
    if nz f 36 36 then fin (nz f 43 37 || nz f 35 0) false false (.callR xd xa)
    else fin (nz f 49 44 || nz f 43 37 || nz f 35 30) false false (.call xd off)
  | 0x3B => fin (nz f 55 50 || nz f 43 0) false false (.ret xa)
  | 0x3C =>
    if nz f 36 36 then fin (nz f 55 50 || nz f 43 37 || nz f 35 0) false false (.jmpR xa)
    else fin (nz f 55 44 || nz f 43 37 || nz f 35 30) false false (.jmp off)
  | 0x3D => fin (nz f 55 50 || nz f 43 30) false false (.loop xa off)
  | 0x3E => fin (nz f 55 16) false false (.exit (fld f 0 16))
  | _ => .error 3

/-! ### The V slots (R149 to R151) -/

/-- The type field (R149). -/
def tyF (f : SlotBits) : Fld ETy := enumF (ETy.ofCode (fldN f 51 48)) .s4

def decV3 (f : SlotBits) (mk : V3 → Instr) : Except Nat Instr :=
  let ty := tyF f
  let d := dstF f 36 .w4
  let a := srcF f 24
  let b := srcF f 12
  let c := srcF f 0
  fin false ty.fn (d.wd || a.wd || b.wd || c.wd) (mk ⟨fld f 52 4, ty.val, d.val, a.val, b.val, c.val⟩)

def decV2 (f : SlotBits) (mk : V2 → Instr) : Except Nat Instr :=
  let ty := tyF f
  let d := dstF f 36 .w4
  let a := srcF f 24
  let b := srcF f 12
  fin (nz f 11 0) ty.fn (d.wd || a.wd || b.wd) (mk ⟨fld f 52 4, ty.val, d.val, a.val, b.val⟩)

def decV1 (f : SlotBits) (mk : V1 → Instr) : Except Nat Instr :=
  let ty := tyF f
  let d := dstF f 36 .w4
  let a := srcF f 24
  fin (nz f 23 0) ty.fn (d.wd || a.wd) (mk ⟨fld f 52 4, ty.val, d.val, a.val⟩)

/-- VROTR, VROTC, VBCR, VBCC: with SRC set VB is a scalar register or a constant-table entry (R162). -/
def decVAx (f : SlotBits) (mk : VAxA → Instr) : Except Nat Instr :=
  let ty := tyF f
  let d := dstF f 36 .w4
  let a := srcF f 24
  if nz f 11 11 then
    let amt : Fld Amt :=
      if fldN f 14 12 == 7 && fldN f 23 21 == 0 then { val := .x (fld f 15 6) }
      else if fldN f 14 12 == 7 && fldN f 23 21 == 6 then { val := .c (fld f 15 6) }
      else { val := .imm 0, fn := true }
    fin (nz f 10 0) (ty.fn || amt.fn) (d.wd || a.wd) (mk ⟨fld f 52 4, ty.val, d.val, a.val, amt.val⟩)
  else
    fin (nz f 10 6) (ty.fn || nz f 23 12) (d.wd || a.wd) (mk ⟨fld f 52 4, ty.val, d.val, a.val, .imm (fld f 0 6)⟩)

def decVRed (f : SlotBits) (mk : VRedA → Instr) : Except Nat Instr :=
  let ty := tyF f
  let d := dstF f 36 .w4
  let a := srcF f 24
  let op := enumF (RedOp.ofCode (fldN f 2 0)) .add
  fin (nz f 23 3) (ty.fn || op.fn) (d.wd || a.wd) (mk ⟨fld f 52 4, ty.val, op.val, d.val, a.val⟩)

def decP2 (f : SlotBits) (mk : P2 → Instr) : Except Nat Instr :=
  fin (nz f 51 40 || nz f 35 28 || nz f 23 16 || nz f 11 0) false false
    (mk ⟨fld f 52 4, fld f 36 4, fld f 24 4, fld f 12 4⟩)

/-- Decodes a present V slot (R151). -/
def decodeV (f : SlotBits) : Except Nat Instr :=
  let pg : PIdx := fld f 52 4
  let ty := tyF f
  let d := dstF f 36 .w4
  let a := srcF f 24
  let b := srcF f 12
  -- a LACC operand: WIDTH must be 0b000 (LACC_ALIGN, R76)
  let lal (i : Instr) (w : Bool) (r : Except Nat Instr) : Except Nat Instr :=
    match r with
    | .error e => .error e
    | .ok _ => if w then .error 8 else .ok i
  match fldN f 61 56 with
  | 0x01 => decV2 f .vadd
  | 0x02 => decV2 f .vsub
  | 0x03 => decV2 f .vmul
  | 0x04 => decV2 f .vmulh
  | 0x05 => decV2 f .vdiv
  | 0x06 => decV2 f .vmin
  | 0x07 => decV2 f .vmax
  | 0x08 => decV3 f .vfma
  | 0x09 => decV3 f .vfms
  | 0x0A => decV3 f .vfnma
  | 0x0B => decV2 f .vadds
  | 0x0C => decV2 f .vsubs
  | 0x0D => decV1 f .vabs
  | 0x0E => decV1 f .vneg
  | 0x0F => decV1 f .vmov
  | 0x10 => decV2 f .vand
  | 0x11 => decV2 f .vor
  | 0x12 => decV2 f .vxor
  | 0x13 => decV2 f .vandn
  | 0x14 => decV2 f .vshl
  | 0x15 => decV2 f .vshr
  | 0x16 => decV1 f .vclz
  | 0x17 => decV1 f .vpopc
  | 0x18 =>
    let r := enumF (VRel.ofCode (fldN f 2 0)) .eq
    fin (nz f 47 40 || nz f 11 3) (ty.fn || r.fn) (a.wd || b.wd)
      (.vcmp ⟨pg, ty.val, r.val, fld f 36 4, a.val, b.val⟩)
  | 0x19 =>
    fin (nz f 11 4) ty.fn (d.wd || a.wd || b.wd) (.vsel ⟨pg, ty.val, d.val, a.val, b.val, fld f 0 4⟩)
  | 0x1A =>
    let ts := enumF (ETy.ofCode (fldN f 3 0)) .s4
    let rm := enumF (Rnd.ofCode (fldN f 6 4)) .rne
    fin (nz f 23 8) (ty.fn || ts.fn || rm.fn) (d.wd || a.wd)
      (.vcvt ⟨pg, ty.val, ts.val, rm.val, nz f 7 7, d.val, a.val⟩)
  | 0x20 => decV1 f .vrcp
  | 0x21 => decV1 f .vsqrt
  | 0x22 => decV1 f .vrsq
  | 0x23 => decV1 f .vexp2
  | 0x24 => decV1 f .vlog2
  | 0x25 => decV1 f .vtanh
  | 0x28 => decV2 f .vshuf
  | 0x29 => decVAx f .vrotr
  | 0x2A => decVAx f .vrotc
  | 0x2B => decVAx f .vbcr
  | 0x2C => decVAx f .vbcc
  | 0x2D => decVRed f .vredr
  | 0x2E => decVRed f .vredc
  | 0x2F =>
    fin (nz f 35 28 || nz f 23 1) ty.fn d.wd (.vidx ⟨pg, ty.val, nz f 0 0, d.val, fld f 24 4⟩)
  | 0x30 => decP2 f .pand
  | 0x31 => decP2 f .por
  | 0x32 => decP2 f .pxor
  | 0x33 =>
    fin (nz f 51 40 || nz f 35 28 || nz f 23 0) false false (.pnot ⟨pg, fld f 36 4, fld f 24 4⟩)
  | 0x34 =>
    let w2 := nz f 38 36 || nz f 26 24
    if nz f 0 0 then
      let i := Instr.vladd ⟨pg, fld f 39 9, fld f 27 9, .lacc (fld f 15 9)⟩
      lal i (w2 || nz f 14 12) (fin (nz f 51 48 || nz f 11 1) false false i)
    else
      let i := Instr.vladd ⟨pg, fld f 39 9, fld f 27 9, .val ty.val b.val⟩
      lal i w2 (fin (nz f 11 1) ty.fn b.wd i)
  | 0x35 =>
    let i := Instr.vlrnd ⟨pg, d.val, fld f 27 9⟩
    lal i (nz f 26 24) (fin (nz f 23 0) (fldN f 51 48 != 14) d.wd i)
  | 0x36 =>
    let i := Instr.vlclr pg (fld f 39 9)
    lal i (nz f 38 36) (fin (nz f 51 48 || nz f 35 0) false false i)
  | 0x38 =>
    let op := enumF (CondOp.ofCode (fldN f 2 0)) .or
    fin (nz f 47 38 || nz f 23 3) (ty.fn || op.fn) a.wd (.vcond ⟨pg, ty.val, op.val, fld f 36 2, a.val⟩)
  | 0x39 =>
    fin (nz f 55 48 || nz f 47 39 || nz f 23 0) (fldN f 26 24 != 7 || fldN f 35 33 != 0) false
      (.vview (fld f 36 3) (fld f 27 6))
  | _ => .error 3

/-! ### The M slot (R177, R178) -/

/-- TV and three TIN fields below bit hi (R177). -/
def toksF (f : SlotBits) (lo : Nat) : Toks :=
  ⟨fld f (lo + 18) 3, fld f (lo + 12) 6, fld f (lo + 6) 6, fld f lo 6⟩

def decodeM (f : SlotBits) : Except Nat Instr :=
  match fldN f 61 56 with
  | 0x01 =>
    let wt := enumF (WTy.ofCode (fldN f 8 6)) .g4
    -- XS must be zero unless WT is G4 or G3, so under a reserved WT too
    fin (nz f 4 0 || ((wt.fn || !wt.val.grouped) && nz f 14 9)) wt.fn false
      (.mlds ⟨fld f 50 6, toksF f 29, fld f 21 8, fld f 15 6, fld f 9 6, wt.val, nz f 5 5⟩)
  | 0x02 => fin (nz f 55 0) false false .mswap
  | 0x03 =>
    let at' := enumF (ATy.ofCode (fldN f 10 9)) .bf16
    fin (nz f 6 0) at'.fn false
      (.mmul ⟨fld f 50 6, toksF f 29, fld f 26 3, fld f 23 3, fld f 11 12, at'.val, nz f 8 8, nz f 7 7⟩)
  | 0x04 => fin (nz f 55 0) false false .mzero
  | _ => .error 3

/-! ### The LD and SD slots (R225, R226) -/

/-- Format VM. `special`: VI must be a special operand, so every other WIDTH, 0b110 among them, gives FUNCTION (R227). -/
def decVM (special : Bool) (f : SlotBits) (mk : LMem → Instr) : Except Nat Instr :=
  let d := dstF f 40 .w32
  let vi := srcF f 28
  fin (nz f 18 17) (special && fldN f 30 28 != 7) (d.wd || vi.wd)
    (mk ⟨fld f 52 4, d.val, vi.val, fld f 22 6, fld f 19 3, nz f 16 16, fld f 0 16⟩)

def decSF (f : SlotBits) (mk : SpillA → Instr) : Except Nat Instr :=
  fin (nz f 15 0) false false (mk ⟨fld f 52 4, fld f 43 9, fld f 34 9, fld f 22 12, fld f 16 6⟩)

def decodeLD (f : SlotBits) : Except Nat Instr :=
  let vi := srcF f 28
  match fldN f 61 56 with
  | 0x01 => decVM true f .vld
  | 0x02 =>
    fin (nz f 10 0) (fldN f 42 40 != 3) vi.wd
      (.vldt ⟨fld f 52 4, fld f 43 9, vi.val, fld f 22 6, fld f 19 3, fld f 11 8⟩)
  | 0x03 => decVM false f .vldx
  | 0x04 => decVM false f .vldg
  | 0x05 => decSF f .fill
  | 0x06 =>
    fin (nz f 51 40 || nz f 18 16) false vi.wd (.vpref ⟨fld f 52 4, vi.val, fld f 22 6, fld f 19 3, fld f 0 16⟩)
  | _ => .error 3

def decodeSD (f : SlotBits) : Except Nat Instr :=
  match fldN f 61 56 with
  | 0x01 => decVM true f .vst
  | 0x02 => decVM false f .vstx
  | 0x03 => decVM false f .vstg
  | 0x04 =>
    let d := dstF f 40 .w32
    let vs := dstF f 28 .w32
    let vi := srcF f 16
    let op := enumF (AOp.ofCode (fldN f 6 3)) .swap
    -- a VS of the WIDTH that no operand has is neither 32 nor 64 bits wide
    fin (nz f 1 0) (op.fn || fldN f 42 40 != fldN f 30 28 || fldN f 30 28 == 6) (d.wd || vs.wd || vi.wd)
      (.vamo ⟨fld f 52 4, d.val, vs.val, vi.val, fld f 10 6, fld f 7 3, op.val, nz f 2 2⟩)
  | 0x05 => decSF f .spill
  | _ => .error 3

/-! ### The C slot (R234, R235) -/

def decodeC (f : SlotBits) : Except Nat Instr :=
  match fldN f 61 56 with
  | 0x01 => fin (nz f 37 0) false false (.cdesc (fld f 50 6) (fld f 38 12))
  | 0x02 =>
    let ds := enumF (DSel.ofCode (fldN f 1 0)) .none
    let a : CopyA := ⟨fld f 50 6, toksF f 29, fld f 21 8, fld f 15 6, fld f 9 6, fld f 3 6, ds.val⟩
    fin false ds.fn false (if nz f 2 2 then .ccopyOut a else .ccopyIn a)
  | 0x03 =>
    fin (nz f 3 0) false false
      (.cmcast ⟨fld f 50 6, fld f 48 2, fld f 42 6, fld f 36 6, fld f 28 8, fld f 22 6, fld f 16 6, fld f 10 6,
        fld f 4 6⟩)
  | 0x04 => fin (nz f 16 0) false false (.tdef (fld f 48 8) (fld f 32 16) (fld f 19 13) (nz f 18 18) (nz f 17 17))
  | 0x05 => fin (nz f 47 0) false false (.trel (fld f 48 8))
  | 0x06 => fin (nz f 46 0) false false (.tcfg (fld f 48 8) (nz f 47 47))
  | 0x07 => fin (nz f 27 0) false false (.cflush (fld f 50 6) (toksF f 29) (nz f 28 28))
  | 0x08 => fin (nz f 50 0) false false (.csplit (fld f 51 5))
  | 0x09 =>
    let dc : BitVec 2 := fld f 54 2
    let rsv := nz f 42 0
    match fldN f 53 51 with
    | 0 => fin rsv false false (.cstat dc (.tile (fld f 43 8)))
    | 1 => fin rsv (nz f 50 49) false (.cstat dc (.desc (fld f 43 6)))
    | 2 => fin (rsv || nz f 50 43) false false (.cstat dc .split)
    | 3 => fin (rsv || nz f 50 43) false false (.cstat dc .copy)
    | _ => fin (rsv || nz f 50 43) true false (.cstat dc .copy)
  | _ => .error 3

/-! ### The Y slot (R321 to R323, R403 to R408, R423) -/

/-- PAT and AX (R408); AX is zero where PAT has no axis. -/
def permF (f : SlotBits) : Fld PermPat × Bool :=
  let ax := enumF (Axis.ofCode (fldN f 52 51)) .row
  match fldN f 55 53 with
  | 0 => ({ val := .shift ax.val, fn := ax.fn }, false)
  | 1 => ({ val := .rot ax.val, fn := ax.fn }, false)
  | 2 => ({ val := .xor }, nz f 52 51)
  | 3 => ({ val := .bcast }, nz f 52 51)
  | 4 => ({ val := .trans }, nz f 52 51)
  | _ => ({ val := .xor, fn := true }, nz f 52 51)

def decodeY (f : SlotBits) : Except Nat Instr :=
  let xd : Reg := fld f 50 6
  let xa : Reg := fld f 44 6
  let xb : Reg := fld f 38 6
  let sc := enumF (Scope.ofCode (fldN f 32 30)) .mod
  let qs := enumF (QSel.ofCode (fldN f 32 30)) .all
  match fldN f 61 56 with
  | 0x01 => fin (nz f 34 0) false false (.twait (toksF f 35))
  | 0x02 => fin (nz f 55 31) (nz f 29 7) false (.bacq (nz f 30 30) (fld f 0 7))
  | 0x03 => fin (nz f 55 30) (nz f 29 7) false (.brel (fld f 0 7))
  | 0x04 => fin (nz f 55 33 || nz f 29 0) sc.fn false (.fence sc.val)
  | 0x08 => fin (nz f 37 33 || nz f 29 0) sc.fn false (.sigadd sc.val xd xa xb)
  | 0x09 => fin (nz f 55 50 || nz f 37 33 || nz f 29 0) sc.fn false (.sigst sc.val xa xb)
  | 0x0A =>
    let c := enumF (PCond.ofCode (fldN f 35 33)) .eq
    fin (nz f 37 36 || nz f 29 0) (sc.fn || c.fn) false (.sigwait c.val sc.val xd xa xb)
  | 0x0B => fin (nz f 43 12) false false (.enq xd xa (fld f 0 12))
  | 0x0C => fin (nz f 55 0) false false .yield
  | 0x10 => fin (nz f 55 16) false false (.trap (fld f 0 16))
  | 0x11 => fin (nz f 49 12) false false (.sysrd xd (fld f 0 12))
  | 0x12 => fin (nz f 55 50 || nz f 43 12) false false (.syswr xa (fld f 0 12))
  | 0x13 =>
    let rsv := nz f 43 31 || nz f 29 0
    if nz f 30 30 then fin rsv false false (.eretSkip xd xa) else fin rsv false false (.eretReplay xd xa)
  | 0x14 =>
    let rsv := nz f 37 31 || nz f 29 0
    if nz f 30 30 then fin (rsv || nz f 55 50) false false (.mboxReply xa xb)
    else fin rsv false false (.mbox xd xa xb)
  | 0x15 =>
    let rsv := nz f 37 31 || nz f 29 0
    if nz f 30 30 then fin rsv false false (.rrfillData xd xa xb)
    else fin (rsv || nz f 43 38) false false (.rrfillRetry xd xa)
  | 0x18 => fin (nz f 49 44 || nz f 37 34 || nz f 29 0) qs.fn false (.felog qs.val (nz f 33 33) xd xb)
  | 0x19 => fin (nz f 49 38 || nz f 37 34 || nz f 29 0) qs.fn false (.mstat qs.val (nz f 33 33) xd)
  | 0x20 => fin (nz f 39 0) false false (.rdv (fld f 40 16))
  | 0x21 =>
    let op := enumF (YRed.ofCode (fldN f 47 45)) .or
    fin (nz f 44 0) op.fn false (.red op.val xd (fld f 48 2))
  | 0x22 => fin (nz f 43 0) false false (.mask ⟨fld f 50 6, fld f 46 4, nz f 45 45, nz f 44 44⟩)
  | 0x23 =>
    let p := permF f
    if nz f 47 47 then
      fin (p.2 || nz f 15 0) p.1.fn false
        (.permVault ⟨p.1.val, fld f 48 3, fld f 40 7, fld f 34 6, fld f 28 6, fld f 22 6, fld f 16 6⟩)
    else
      fin (p.2 || nz f 21 0) p.1.fn false (.perm ⟨p.1.val, fld f 48 3, fld f 40 7, fld f 31 9, fld f 22 9⟩)
  | 0x28 => fin (nz f 10 0) false false (.coll xd (fld f 44 6) (toksF f 23) (fld f 11 12))
  | 0x29 =>
    let rsv := nz f 43 31 || nz f 29 0
    if nz f 30 30 then fin rsv false false (.cwaitTest xd xa) else fin rsv false false (.cwait xd xa)
  | 0x2A => fin (nz f 43 0) false false (.ccancel xd xa)
  | _ => .error 3

/-- Decodes the field of a present slot (R64): the instruction, or the reason code (R68). -/
def decodeSlot (slot : Nat) (f : SlotBits) : Except Nat Instr :=
  match slot with
  | 0 => decodeS f
  | 1 => decodeV f
  | 2 => decodeV f
  | 3 => decodeM f
  | 4 => decodeLD f
  | 5 => decodeSD f
  | 6 => decodeC f
  | _ => decodeY f

/-! ### Scalar references of a die slot, in the order of R78 -/

def Opnd.refs : Opnd → List Reg
  | .x r => [r]
  | _ => []

def Amt.refs : Amt → List Reg
  | .x r => [r]
  | _ => []

def V1.refs (a : V1) : List Reg := a.va.refs
def V2.refs (a : V2) : List Reg := a.va.refs ++ a.vb.refs
def V3.refs (a : V3) : List Reg := a.va.refs ++ a.vb.refs ++ a.vc.refs

/-- The registers a die slot names, by its fields from bit 61 down (R78, R321). -/
def Instr.refs : Instr → List Reg
  | .vadd a => a.refs
  | .vsub a => a.refs
  | .vmul a => a.refs
  | .vmulh a => a.refs
  | .vdiv a => a.refs
  | .vmin a => a.refs
  | .vmax a => a.refs
  | .vfma a => a.refs
  | .vfms a => a.refs
  | .vfnma a => a.refs
  | .vadds a => a.refs
  | .vsubs a => a.refs
  | .vabs a => a.refs
  | .vneg a => a.refs
  | .vmov a => a.refs
  | .vand a => a.refs
  | .vor a => a.refs
  | .vxor a => a.refs
  | .vandn a => a.refs
  | .vshl a => a.refs
  | .vshr a => a.refs
  | .vclz a => a.refs
  | .vpopc a => a.refs
  | .vcmp a => a.va.refs ++ a.vb.refs
  | .vsel a => a.va.refs ++ a.vb.refs
  | .vcvt a => a.va.refs
  | .vrcp a => a.refs
  | .vsqrt a => a.refs
  | .vrsq a => a.refs
  | .vexp2 a => a.refs
  | .vlog2 a => a.refs
  | .vtanh a => a.refs
  | .vshuf a => a.refs
  | .vrotr a => a.va.refs ++ a.amt.refs
  | .vrotc a => a.va.refs ++ a.amt.refs
  | .vbcr a => a.va.refs ++ a.amt.refs
  | .vbcc a => a.va.refs ++ a.amt.refs
  | .vredr a => a.va.refs
  | .vredc a => a.va.refs
  | .vladd a =>
    match a.src with
    | .val _ o => o.refs
    | .lacc _ => []
  | .vcond a => a.va.refs
  | .vview _ xa => [xa]
  | .mlds a => [a.xw, a.xs]
  | .vld a => a.vi.refs ++ [a.xa]
  | .vldx a => a.vi.refs ++ [a.xa]
  | .vldg a => a.vi.refs ++ [a.xa]
  | .vpref a => a.vi.refs ++ [a.xa]
  | .vldt a => a.vi.refs ++ [a.xa]
  | .fill a => [a.xo]
  | .vst a => a.vi.refs ++ [a.xa]
  | .vstx a => a.vi.refs ++ [a.xa]
  | .vstg a => a.vi.refs ++ [a.xa]
  | .vamo a => a.vi.refs ++ [a.xa]
  | .spill a => [a.xo]
  | .ccopyIn a => [a.xo, a.xb]
  | .ccopyOut a => [a.xo, a.xb]
  | .cmcast a => [a.xo, a.xb, a.xm]
  | .bacq _ _ => [0, 0, 0]
  | .brel _ => [0, 0, 0]
  | .fence _ => [0, 0, 0]
  | .sigadd _ xd xa xb => [xd, xa, xb]
  | .sigst _ xa xb => [0, xa, xb]
  | .sigwait _ _ xd xa xb => [xd, xa, xb]
  | .enq xd xa _ => [xd, xa, 0]
  | .yield => [0, 0, 0]
  | .trap _ => [0, 0, 0]
  | .mbox xd xa xb => [xd, xa, xb]
  | .mboxReply xa xb => [0, xa, xb]
  | .eretReplay xd xa => [xd, xa, 0]
  | .eretSkip xd xa => [xd, xa, 0]
  | .rrfillRetry xd xa => [xd, xa, 0]
  | .rrfillData xd xa xb => [xd, xa, xb]
  | .felog _ _ xd xe => [xd, 0, xe]
  | .mstat _ _ xd => [xd, 0, 0]
  | .sysrd xd _ => [xd, 0, 0]
  | .syswr xa _ => [0, xa, 0]
  | .red _ xd _ => [xd]
  | .mask a => [a.xa]
  | .permVault a => [a.xs, a.xt, a.xn]
  | .coll xd _ _ _ => [xd]
  | .cwait xd xa => [xd, xa, 0]
  | .cwaitTest xd xa => [xd, xa, 0]
  | .ccancel xd xa => [xd, xa, 0]
  | _ => []

/-! ### Bundles -/

/-- A decoded bundle: the header fields (R63) and the present slots in slot order. -/
structure Bundle where
  rv : Bool
  rep : Bool
  lbs : Bool
  lbe : Bool
  qg : QIdx
  slots : List (Nat × Instr)
  deriving DecidableEq, Repr

/-- Slot field i of a bundle (R62). -/
def slotField (b : BundleBits) (i : Nat) : SlotBits := BitVec.ofNat 62 (b.toNat / 2 ^ (434 - 62 * i))

/-- The header of a bundle (R62). -/
def headerOf (b : BundleBits) : BitVec 16 := BitVec.ofNat 16 (b.toNat / 2 ^ 496)

/-- The ILLEGAL_BUNDLE detail (R69). -/
def detail (reason slot : Nat) : BitVec 8 := BitVec.ofNat 8 (reason * 16 + slot)

/-- Decodes slots i to 7, given the scalar references made so far (R68, R69, R78). -/
def decodeSlots (b : BundleBits) (present : BitVec 16) (i fuel refs : Nat) (acc : List (Nat × Instr)) :
    Except (BitVec 8) (List (Nat × Instr)) :=
  match fuel with
  | 0 => .ok acc.reverse
  | fuel + 1 =>
    let f := slotField b i
    if present.getLsbD i then
      match decodeSlot i f with
      | .error r => .error (detail r i)
      | .ok ins =>
        let n := refs + (if i == 0 then 0 else ins.refs.length)
        if i != 0 && 8 < n then .error (detail 9 i)
        else decodeSlots b present (i + 1) fuel n ((i, ins) :: acc)
    else if f != 0 then .error (detail 2 i)
    else decodeSlots b present (i + 1) fuel refs acc

/-- REP needs an MMUL in a present M slot (R67, R178). -/
def repLegal (b : BundleBits) (present : BitVec 16) : Bool :=
  present.getLsbD 3 && fldN (slotField b 3) 61 56 == 3

/-- Decodes a whole bundle: the header first, then the slots in order; an error is the detail byte (R68, R69). -/
def decodeBundle (b : BundleBits) : Except (BitVec 8) Bundle :=
  let h := headerOf b
  if h.getLsbD 8 then .error (detail 1 8)
  else if h.getLsbD 14 && !repLegal b h then .error (detail 10 8)
  else match decodeSlots b h 0 8 0 [] with
  | .error e => .error e
  | .ok slots =>
    .ok ⟨h.getLsbD 15, h.getLsbD 14, h.getLsbD 13, h.getLsbD 12, BitVec.ofNat 3 (h.toNat / 2 ^ 9), slots⟩

/-- The little-endian number of a byte list (R2). -/
def leNat : List Byte → Nat
  | [] => 0
  | b :: bs => b.toNat + 256 * leNat bs

/-- The n low bytes of a number, little-endian (R2). -/
def leBytes (v : Nat) : Nat → List Byte
  | 0 => []
  | n + 1 => BitVec.ofNat 8 v :: leBytes (v / 256) n

/-- Decodes 64 bytes of memory as a bundle (R62). -/
def decodeBytes (bs : List Byte) : Except (BitVec 8) Bundle := decodeBundle (BitVec.ofNat 512 (leNat bs))

/-- The instruction of a bundle that holds exactly one present slot, and NO_OPERATION for a bundle that holds none. -/
def soleInstr (b : Bundle) : Option Instr :=
  match b.slots with
  | [] => some .noOperation
  | [(_, i)] => some i
  | _ => none

/-- The instruction that the decoder reads from an instruction word: the word is a bundle whose bit 0 is bit 0 of the
byte at its address (R62). -/
def decodeTableWord (_nbits w : Nat) : Option Instr :=
  match decodeBundle (BitVec.ofNat 512 w) with
  | .error _ => none
  | .ok b => soleInstr b

/-! ### Packets (R275, R276) -/

/-- Bits hi : lo of a packet. -/
def pf (p : BundleBits) (hi lo : Nat) : Nat := p.toNat / 2 ^ lo % 2 ^ (hi + 1 - lo)

def pz (p : BundleBits) (hi lo : Nat) : Bool := pf p hi lo == 0

def decHdr (p : BundleBits) : PHdr :=
  { csig := BitVec.ofNat 56 (pf p 119 64), tag := BitVec.ofNat 32 (pf p 63 32), irq := pf p 12 12 == 1,
    scope := PScope.ofCode (pf p 11 10), crec := pf p 9 9 == 1, ord := pf p 8 8 == 1 }

/-- The header's reserved bits are zero and CSIG is aligned (R275). -/
def hdrOk (p : BundleBits) : Bool := pz p 127 120 && pz p 31 13 && pz p 66 64

/-- A control packet has no completion fields (R275). -/
def ctlOk (p : BundleBits) : Bool := pz p 119 64 && pz p 9 9 && pz p 12 12

def barSig (p : BundleBits) (cl al vl : Nat) : Option BarSig :=
  (PCond.ofCode (pf p (cl + 2) cl)).map fun c =>
    ⟨c, BitVec.ofNat 56 (pf p (al + 55) al), BitVec.ofNat 64 (pf p (vl + 63) vl)⟩

/-- A BARRIER signal is aligned, and a signal that V does not use is zero (R275, R276). -/
def barOk (p : BundleBits) (v cl al vl : Nat) : Bool :=
  pz p (al + 2) al && (pf p v v == 1 || (pz p (cl + 2) cl && pz p (al + 55) al && pz p (vl + 63) vl))

/-- The packet, when the condition that R275 sets holds. -/
def okIf (c : Bool) (i : Instr) : Option Instr := if c then some i else none

/-- Decodes a packet; none is BAD_PACKET (R275). Ranges that depend on the mode are checked at dispatch (R276). -/
def decodePacket (p : BundleBits) : Option Instr :=
  let h := decHdr p
  let a56 (lo : Nat) : BitVec 56 := BitVec.ofNat 56 (pf p (lo + 55) lo)
  if !hdrOk p then none
  else match pf p 7 0 with
  | 0x00 => okIf (pz p 511 128) (.nop h)
  | 0x01 =>
    okIf (pz p 461 456 && pz p 405 400 && pz p 387 128)
      (.launch h ⟨a56 456, a56 400, BitVec.ofNat 7 (pf p 399 393), BitVec.ofNat 4 (pf p 392 389), pf p 388 388 == 1⟩)
  | 0x02 =>
    okIf (pz p 461 456 && pz p 405 400 && (pf p 399 398 == 1 || pf p 399 398 == 2) && pz p 397 393 && pz p 387 384
        && !pz p 383 256 && pz p 255 128)
      (.gang h ⟨a56 456, a56 400, pf p 399 398 == 2, BitVec.ofNat 128 (pf p 383 256), BitVec.ofNat 4 (pf p 392 389),
        pf p 388 388 == 1⟩)
  | 0x03 => okIf (pz p 461 456 && pz p 443 128) (.graph h (a56 456) (BitVec.ofNat 12 (pf p 455 444)))
  | 0x04 =>
    match barSig p 143 152 320, barSig p 146 208 384, barSig p 149 264 448 with
    | some s0, some s1, some s2 =>
      okIf (barOk p 140 143 152 320 && barOk p 141 146 208 384 && barOk p 142 149 264 448 && pz p 139 128)
        (.barrier h ⟨s0, s1, s2, BitVec.ofNat 3 (pf p 142 140)⟩)
    | _, _, _ => none
  | 0x05 =>
    okIf (pz p 458 456 && pf p 455 454 < 2 && pz p 453 384 && pz p 319 128)
      (.signal h (a56 456) (pf p 455 454 == 1) (w64 (pf p 383 320)))
  | 0x06 =>
    -- bits 5:0 of DST are left to the packet's own checks (R347)
    okIf (pz p 461 456 && pz p 392 384 && pz p 349 344 && pz p 343 128)
      (.copy h ⟨a56 456, a56 400, BitVec.ofNat 7 (pf p 399 393), BitVec.ofNat 40 (pf p 383 344)⟩)
  | 0x07 =>
    okIf (ctlOk p && pz p 461 456 && pz p 439 128) (.indirect h (a56 456) (BitVec.ofNat 16 (pf p 455 440)))
  | 0x08 =>
    okIf (ctlOk p && pz p 487 128 && !pz p 495 488)
      (.loopPacket h (BitVec.ofNat 16 (pf p 511 496)) (BitVec.ofNat 8 (pf p 495 488)))
  | 0x09 =>
    match PCond.ofCode (pf p 455 453) with
    | some c =>
      okIf (ctlOk p && pz p 458 456 && !pz p 452 445 && pz p 444 384 && pz p 319 128)
        (.pred h ⟨a56 456, c, BitVec.ofNat 8 (pf p 452 445), w64 (pf p 383 320)⟩)
    | none => none
  | 0x0A => okIf (ctlOk p && pz p 511 128) (.fetchfence h)
  | 0x0B => okIf (pz p 447 128) (.event h (w64 (pf p 511 448)))
  | 0x0C => okIf (pz p 511 128) (.phase h)
  | 0x0D =>
    match CLevel.ofCode (pf p 479 477) with
    | some l => okIf (pz p 475 128) (.cancel h (BitVec.ofNat 32 (pf p 511 480)) l (pf p 476 476 == 1))
    | none => none
  | 0x0E => okIf (pz p 458 456 && pz p 455 128) (.timestamp h (a56 456))
  | _ => none

/-! ### The encoder, from the same tables -/

def eSR (op : Nat) (xd xa fn xb xc : Nat) : Nat :=
  op * 2 ^ 56 + xd * 2 ^ 50 + xa * 2 ^ 44 + fn * 2 ^ 36 + xb * 2 ^ 30 + xc * 2 ^ 24

def eSI (op : Nat) (xd xa fn imm : Nat) : Nat := op * 2 ^ 56 + xd * 2 ^ 50 + xa * 2 ^ 44 + fn * 2 ^ 36 + imm

def eSB (op : Nat) (xd xa fn xb off : Nat) : Nat :=
  op * 2 ^ 56 + xd * 2 ^ 50 + xa * 2 ^ 44 + fn * 2 ^ 36 + xb * 2 ^ 30 + off

def eV (op : Nat) (pg : PIdx) (ty vd va vb vc : Nat) : Nat :=
  op * 2 ^ 56 + pg.toNat * 2 ^ 52 + ty * 2 ^ 48 + vd * 2 ^ 36 + va * 2 ^ 24 + vb * 2 ^ 12 + vc

def V1.enc (a : V1) (op : Nat) : Nat := eV op a.pg a.ty.code a.vd.enc a.va.enc 0 0
def V2.enc (a : V2) (op : Nat) : Nat := eV op a.pg a.ty.code a.vd.enc a.va.enc a.vb.enc 0
def V3.enc (a : V3) (op : Nat) : Nat := eV op a.pg a.ty.code a.vd.enc a.va.enc a.vb.enc a.vc.enc
def P2.enc (a : P2) (op : Nat) : Nat := eV op a.pg 0 a.pd.toNat a.pa.toNat a.pb.toNat 0

def VAxA.enc (a : VAxA) (op : Nat) : Nat :=
  match a.amt with
  | .imm n => eV op a.pg a.ty.code a.vd.enc a.va.enc 0 n.toNat
  | .x r => eV op a.pg a.ty.code a.vd.enc a.va.enc (Opnd.x r).enc 2048
  | .c n => eV op a.pg a.ty.code a.vd.enc a.va.enc (Opnd.c n).enc 2048

def VRedA.enc (a : VRedA) (op : Nat) : Nat := eV op a.pg a.ty.code a.vd.enc a.va.enc 0 a.op.code

def Toks.enc (t : Toks) (lo : Nat) : Nat :=
  t.tv.toNat * 2 ^ (lo + 18) + t.t0.toNat * 2 ^ (lo + 12) + t.t1.toNat * 2 ^ (lo + 6) + t.t2.toNat * 2 ^ lo

def LMem.enc (a : LMem) (op : Nat) : Nat :=
  op * 2 ^ 56 + a.pg.toNat * 2 ^ 52 + a.vd.enc * 2 ^ 40 + a.vi.enc * 2 ^ 28 + a.xa.toNat * 2 ^ 22 + a.sc.toNat * 2 ^ 19
    + b2n a.dev * 2 ^ 16 + a.off.toNat

def SpillA.enc (a : SpillA) (op : Nat) : Nat :=
  op * 2 ^ 56 + a.pg.toNat * 2 ^ 52 + a.ss.toNat * 2 ^ 43 + a.nsm1.toNat * 2 ^ 34 + a.sps.toNat * 2 ^ 22
    + a.xo.toNat * 2 ^ 16

def CopyA.enc (a : CopyA) (dir : Nat) : Nat :=
  2 * 2 ^ 56 + a.tout.toNat * 2 ^ 50 + a.tin.enc 29 + a.tn.toNat * 2 ^ 21 + a.ds.toNat * 2 ^ 15 + a.xo.toNat * 2 ^ 9
    + a.xb.toNat * 2 ^ 3 + dir * 4 + a.dsel.code

def eY (op : Nat) (xd xa xb fn imm : Nat) : Nat :=
  op * 2 ^ 56 + xd * 2 ^ 50 + xa * 2 ^ 44 + xb * 2 ^ 38 + fn * 2 ^ 30 + imm

/-- The number of a slot instruction's field; events and packets have none and answer 0. -/
def encodeN : Instr → Nat
  | .add d a b => eSR 0x01 d.toNat a.toNat 0 b.toNat 0
  | .sub d a b => eSR 0x02 d.toNat a.toNat 0 b.toNat 0
  | .mul d a b => eSR 0x03 d.toNat a.toNat 0 b.toNat 0
  | .mulh d a b => eSR 0x04 d.toNat a.toNat 0 b.toNat 0
  | .mulhn d a b => eSR 0x05 d.toNat a.toNat 0 b.toNat 0
  | .div d a b => eSR 0x06 d.toNat a.toNat 0 b.toNat 0
  | .divn d a b => eSR 0x07 d.toNat a.toNat 0 b.toNat 0
  | .rem d a b => eSR 0x08 d.toNat a.toNat 0 b.toNat 0
  | .remn d a b => eSR 0x09 d.toNat a.toNat 0 b.toNat 0
  | .and d a b => eSR 0x0A d.toNat a.toNat 0 b.toNat 0
  | .or d a b => eSR 0x0B d.toNat a.toNat 0 b.toNat 0
  | .xor d a b => eSR 0x0C d.toNat a.toNat 0 b.toNat 0
  | .shl d a b => eSR 0x0D d.toNat a.toNat 0 b.toNat 0
  | .shr d a b => eSR 0x0E d.toNat a.toNat 0 b.toNat 0
  | .sra d a b => eSR 0x0F d.toNat a.toNat 0 b.toNat 0
  | .min d a b => eSR 0x10 d.toNat a.toNat 0 b.toNat 0
  | .max d a b => eSR 0x11 d.toNat a.toNat 0 b.toNat 0
  | .minn d a b => eSR 0x12 d.toNat a.toNat 0 b.toNat 0
  | .maxn d a b => eSR 0x13 d.toNat a.toNat 0 b.toNat 0
  | .clz d a => eSR 0x14 d.toNat a.toNat 0 0 0
  | .popc d a => eSR 0x15 d.toNat a.toNat 0 0 0
  | .addi d a i => eSI 0x18 d.toNat a.toNat 0 i.toNat
  | .andi d a i => eSI 0x19 d.toNat a.toNat 0 i.toNat
  | .ori d a i => eSI 0x1A d.toNat a.toNat 0 i.toNat
  | .xori d a i => eSI 0x1B d.toNat a.toNat 0 i.toNat
  | .shiShl d a i => eSI 0x1C d.toNat a.toNat 0 i.toNat
  | .shiShr d a i => eSI 0x1C d.toNat a.toNat 1 i.toNat
  | .shiSra d a i => eSI 0x1C d.toNat a.toNat 2 i.toNat
  | .li d i => 0x1D * 2 ^ 56 + d.toNat * 2 ^ 50 + i.toNat
  | .lih d i => 0x1E * 2 ^ 56 + d.toNat * 2 ^ 50 + i.toNat
  | .cmp q c a b => eSR 0x20 q.toNat a.toNat c.code b.toNat 0
  | .cmpi q c a i => eSI 0x21 q.toNat a.toNat c.code i.toNat
  | .sel d q n a b => eSR 0x22 d.toNat a.toNat (q.toNat + 8 * b2n n) b.toNat 0
  | .movqGet d q => eSR 0x23 d.toNat q.toNat 0 0 0
  | .movqSet q a => eSR 0x23 q.toNat a.toNat 1 0 0
  | .movqGetall d => eSR 0x23 d.toNat 0 2 0 0
  | .movqSetall a => eSR 0x23 0 a.toNat 3 0 0
  | .qop f d a b => eSR 0x24 d.toNat a.toNat f.code b.toNat 0
  | .fadd r d a b => eSR 0x28 d.toNat a.toNat r.code b.toNat 0
  | .fsub r d a b => eSR 0x29 d.toNat a.toNat r.code b.toNat 0
  | .fmul r d a b => eSR 0x2A d.toNat a.toNat r.code b.toNat 0
  | .ffma g r d a b c => eSR 0x2B d.toNat a.toNat (r.code + 8 * b2n g.negC + 16 * b2n g.negP) b.toNat c.toNat
  | .fcmp r q a b => eSR 0x2C q.toNat a.toNat r.code b.toNat 0
  | .fcvt k s r d a => eSR 0x2D d.toNat a.toNat (r.code + 8 * b2n s + 16 * k.code) 0 0
  | .lds z x d a i => eSI 0x30 d.toNat a.toNat (z.code + 4 * b2n x) i.toNat
  | .sts z d a i => eSI 0x31 d.toNat a.toNat z.code i.toNat
  | .ldg z x v d a i => eSI 0x32 d.toNat a.toNat (z.code + 4 * b2n x + 8 * b2n v) i.toNat
  | .stg z v d a i => eSI 0x33 d.toNat a.toNat (z.code + 8 * b2n v) i.toNat
  | .amog o f d a b c => eSR 0x34 d.toNat a.toNat (o.code + 16 * b2n f) b.toNat c.toNat
  | .br c a b o => eSB 0x38 0 a.toNat c.code b.toNat o.toNat
  | .brq q n o => eSB 0x39 0 0 (q.toNat + 8 * b2n n) 0 o.toNat
  | .call d o => eSB 0x3A d.toNat 0 0 0 o.toNat
  | .callR d a => eSB 0x3A d.toNat a.toNat 1 0 0
  | .ret a => eSB 0x3B 0 a.toNat 0 0 0
  | .jmp o => eSB 0x3C 0 0 0 0 o.toNat
  | .jmpR a => eSB 0x3C 0 a.toNat 1 0 0
  | .loop a o => eSB 0x3D 0 a.toNat 0 0 o.toNat
  | .exit c => eSI 0x3E 0 0 0 c.toNat
  | .vadd a => a.enc 0x01
  | .vsub a => a.enc 0x02
  | .vmul a => a.enc 0x03
  | .vmulh a => a.enc 0x04
  | .vdiv a => a.enc 0x05
  | .vmin a => a.enc 0x06
  | .vmax a => a.enc 0x07
  | .vfma a => a.enc 0x08
  | .vfms a => a.enc 0x09
  | .vfnma a => a.enc 0x0A
  | .vadds a => a.enc 0x0B
  | .vsubs a => a.enc 0x0C
  | .vabs a => a.enc 0x0D
  | .vneg a => a.enc 0x0E
  | .vmov a => a.enc 0x0F
  | .vand a => a.enc 0x10
  | .vor a => a.enc 0x11
  | .vxor a => a.enc 0x12
  | .vandn a => a.enc 0x13
  | .vshl a => a.enc 0x14
  | .vshr a => a.enc 0x15
  | .vclz a => a.enc 0x16
  | .vpopc a => a.enc 0x17
  | .vcmp a => eV 0x18 a.pg a.ty.code a.pd.toNat a.va.enc a.vb.enc a.rel.code
  | .vsel a => eV 0x19 a.pg a.ty.code a.vd.enc a.va.enc a.vb.enc a.ps.toNat
  | .vcvt a => eV 0x1A a.pg a.td.code a.vd.enc a.va.enc 0 (a.ts.code + 16 * a.rnd.code + 128 * b2n a.sat)
  | .vrcp a => a.enc 0x20
  | .vsqrt a => a.enc 0x21
  | .vrsq a => a.enc 0x22
  | .vexp2 a => a.enc 0x23
  | .vlog2 a => a.enc 0x24
  | .vtanh a => a.enc 0x25
  | .vshuf a => a.enc 0x28
  | .vrotr a => a.enc 0x29
  | .vrotc a => a.enc 0x2A
  | .vbcr a => a.enc 0x2B
  | .vbcc a => a.enc 0x2C
  | .vredr a => a.enc 0x2D
  | .vredc a => a.enc 0x2E
  | .vidx a => eV 0x2F a.pg a.ty.code a.vd.enc a.pa.toNat 0 (b2n a.quad)
  | .pand a => a.enc 0x30
  | .por a => a.enc 0x31
  | .pxor a => a.enc 0x32
  | .pnot a => eV 0x33 a.pg 0 a.pd.toNat a.pa.toNat 0 0
  | .vladd a =>
    match a.src with
    | .val ty o => eV 0x34 a.pg ty.code (a.vd.toNat * 8) (a.va.toNat * 8) o.enc 0
    | .lacc st => eV 0x34 a.pg 0 (a.vd.toNat * 8) (a.va.toNat * 8) (st.toNat * 8) 1
  | .vlrnd a => eV 0x35 a.pg 14 a.vd.enc (a.va.toNat * 8) 0 0
  | .vlclr pg vd => eV 0x36 pg 0 (vd.toNat * 8) 0 0 0
  | .vcond a => eV 0x38 a.pg a.ty.code a.dc.toNat a.va.enc 0 a.op.code
  | .vview vw xa => eV 0x39 0 0 vw.toNat (Opnd.x xa).enc 0 0
  | .mlds a =>
    0x01 * 2 ^ 56 + a.tout.toNat * 2 ^ 50 + a.tin.enc 29 + a.tw.toNat * 2 ^ 21 + a.xw.toNat * 2 ^ 15
      + a.xs.toNat * 2 ^ 9 + a.wt.code * 2 ^ 6 + b2n a.t * 2 ^ 5
  | .mswap => 0x02 * 2 ^ 56
  | .mmul a =>
    0x03 * 2 ^ 56 + a.tout.toNat * 2 ^ 50 + a.tin.enc 29 + a.av.toNat * 2 ^ 26 + a.cv.toNat * 2 ^ 23
      + a.rows.toNat * 2 ^ 11 + a.aty.code * 2 ^ 9 + b2n a.add * 2 ^ 8 + b2n a.sw * 2 ^ 7
  | .mzero => 0x04 * 2 ^ 56
  | .vld a => a.enc 0x01
  | .vldx a => a.enc 0x03
  | .vldg a => a.enc 0x04
  | .vpref a =>
    0x06 * 2 ^ 56 + a.pg.toNat * 2 ^ 52 + a.vi.enc * 2 ^ 28 + a.xa.toNat * 2 ^ 22 + a.sc.toNat * 2 ^ 19 + a.off.toNat
  | .vldt a =>
    0x02 * 2 ^ 56 + a.pg.toNat * 2 ^ 52 + (a.start.toNat * 8 + 3) * 2 ^ 40 + a.vi.enc * 2 ^ 28 + a.xa.toNat * 2 ^ 22
      + a.sc.toNat * 2 ^ 19 + a.tn.toNat * 2 ^ 11
  | .fill a => a.enc 0x05
  | .vst a => a.enc 0x01
  | .vstx a => a.enc 0x02
  | .vstg a => a.enc 0x03
  | .vamo a =>
    0x04 * 2 ^ 56 + a.pg.toNat * 2 ^ 52 + a.vd.enc * 2 ^ 40 + a.vs.enc * 2 ^ 28 + a.vi.enc * 2 ^ 16
      + a.xa.toNat * 2 ^ 10 + a.sc.toNat * 2 ^ 7 + a.op.code * 2 ^ 3 + b2n a.glob * 4
  | .spill a => a.enc 0x05
  | .cdesc ds sa => 0x01 * 2 ^ 56 + ds.toNat * 2 ^ 50 + sa.toNat * 2 ^ 38
  | .ccopyIn a => a.enc 0
  | .ccopyOut a => a.enc 1
  | .cmcast a =>
    0x03 * 2 ^ 56 + a.tout.toNat * 2 ^ 50 + a.tv.toNat * 2 ^ 48 + a.t0.toNat * 2 ^ 42 + a.t1.toNat * 2 ^ 36
      + a.tn.toNat * 2 ^ 28 + a.ds.toNat * 2 ^ 22 + a.xo.toNat * 2 ^ 16 + a.xb.toNat * 2 ^ 10 + a.xm.toNat * 2 ^ 4
  | .tdef tn o sz sw k =>
    0x04 * 2 ^ 56 + tn.toNat * 2 ^ 48 + o.toNat * 2 ^ 32 + sz.toNat * 2 ^ 19 + b2n sw * 2 ^ 18 + b2n k * 2 ^ 17
  | .trel tn => 0x05 * 2 ^ 56 + tn.toNat * 2 ^ 48
  | .tcfg tn sw => 0x06 * 2 ^ 56 + tn.toNat * 2 ^ 48 + b2n sw * 2 ^ 47
  | .cflush t tin inv => 0x07 * 2 ^ 56 + t.toNat * 2 ^ 50 + tin.enc 29 + b2n inv * 2 ^ 28
  | .csplit nw => 0x08 * 2 ^ 56 + nw.toNat * 2 ^ 51
  | .cstat dc k =>
    0x09 * 2 ^ 56 + dc.toNat * 2 ^ 54 +
      (match k with
       | .tile t => t.toNat * 2 ^ 43
       | .desc d => 1 * 2 ^ 51 + d.toNat * 2 ^ 43
       | .split => 2 * 2 ^ 51
       | .copy => 3 * 2 ^ 51)
  | .twait tin => 0x01 * 2 ^ 56 + tin.enc 35
  | .bacq s r => eY 0x02 0 0 0 (b2n s) r.toNat
  | .brel r => eY 0x03 0 0 0 0 r.toNat
  | .fence sc => eY 0x04 0 0 0 sc.code 0
  | .sigadd sc d a b => eY 0x08 d.toNat a.toNat b.toNat sc.code 0
  | .sigst sc a b => eY 0x09 0 a.toNat b.toNat sc.code 0
  | .sigwait c sc d a b => eY 0x0A d.toNat a.toNat b.toNat (sc.code + 8 * c.code) 0
  | .enq d a sa => eY 0x0B d.toNat a.toNat 0 0 sa.toNat
  | .yield => eY 0x0C 0 0 0 0 0
  | .trap c => eY 0x10 0 0 0 0 c.toNat
  | .sysrd d ad => eY 0x11 d.toNat 0 0 0 ad.toNat
  | .syswr a ad => eY 0x12 0 a.toNat 0 0 ad.toNat
  | .eretReplay d a => eY 0x13 d.toNat a.toNat 0 0 0
  | .eretSkip d a => eY 0x13 d.toNat a.toNat 0 1 0
  | .mbox d a b => eY 0x14 d.toNat a.toNat b.toNat 0 0
  | .mboxReply a b => eY 0x14 0 a.toNat b.toNat 1 0
  | .rrfillRetry d a => eY 0x15 d.toNat a.toNat 0 0 0
  | .rrfillData d a b => eY 0x15 d.toNat a.toNat b.toNat 1 0
  | .felog q c d e => eY 0x18 d.toNat 0 e.toNat (q.code + 8 * b2n c) 0
  | .mstat q c d => eY 0x19 d.toNat 0 0 (q.code + 8 * b2n c) 0
  | .rdv t => 0x20 * 2 ^ 56 + t.toNat * 2 ^ 40
  | .red o d dc => 0x21 * 2 ^ 56 + d.toNat * 2 ^ 50 + dc.toNat * 2 ^ 48 + o.code * 2 ^ 45
  | .mask a => 0x22 * 2 ^ 56 + a.xa.toNat * 2 ^ 50 + a.qm.toNat * 2 ^ 46 + b2n a.kd * 2 ^ 45 + b2n a.kq * 2 ^ 44
  | .perm a =>
    0x23 * 2 ^ 56 + a.pat.codes.1 * 2 ^ 53 + a.pat.codes.2 * 2 ^ 51 + a.gw.toNat * 2 ^ 48 + a.amt.toNat * 2 ^ 40
      + a.ss.toNat * 2 ^ 31 + a.nsm1.toNat * 2 ^ 22
  | .permVault a =>
    0x23 * 2 ^ 56 + a.pat.codes.1 * 2 ^ 53 + a.pat.codes.2 * 2 ^ 51 + a.gw.toNat * 2 ^ 48 + 1 * 2 ^ 47
      + a.amt.toNat * 2 ^ 40 + a.xs.toNat * 2 ^ 34 + a.xt.toNat * 2 ^ 28 + a.xn.toNat * 2 ^ 22 + a.tout.toNat * 2 ^ 16
  | .coll d t tin sa => 0x28 * 2 ^ 56 + d.toNat * 2 ^ 50 + t.toNat * 2 ^ 44 + tin.enc 23 + sa.toNat * 2 ^ 11
  | .cwait d a => eY 0x29 d.toNat a.toNat 0 0 0
  | .cwaitTest d a => eY 0x29 d.toNat a.toNat 0 1 0
  | .ccancel d a => eY 0x2A d.toNat a.toNat 0 0 0
  | _ => 0

/-- The 62-bit field of a slot instruction (R64). -/
def encode (i : Instr) : SlotBits := BitVec.ofNat 62 (encodeN i)

/-- The slots an instruction may stand in, by its slot's own opcode space (R62, R64). -/
def slotsOf : Instr → List Nat
  | .add .. | .sub .. | .mul .. | .mulh .. | .mulhn .. | .div .. | .divn .. | .rem .. | .remn .. | .and .. | .or ..
  | .xor .. | .shl .. | .shr .. | .sra .. | .min .. | .max .. | .minn .. | .maxn .. | .clz .. | .popc .. | .addi ..
  | .andi .. | .ori .. | .xori .. | .shiShl .. | .shiShr .. | .shiSra .. | .li .. | .lih .. | .cmp .. | .cmpi ..
  | .sel .. | .movqGet .. | .movqSet .. | .movqGetall .. | .movqSetall .. | .qop .. | .fadd .. | .fsub .. | .fmul ..
  | .ffma .. | .fcmp .. | .fcvt .. | .lds .. | .sts .. | .ldg .. | .stg .. | .amog .. | .br .. | .brq .. | .call ..
  | .callR .. | .jmp .. | .jmpR .. | .ret .. | .loop .. | .exit .. => [0]
  | .vadd .. | .vsub .. | .vmul .. | .vmulh .. | .vdiv .. | .vmin .. | .vmax .. | .vfma .. | .vfms .. | .vfnma ..
  | .vadds .. | .vsubs .. | .vabs .. | .vneg .. | .vmov .. | .vand .. | .vor .. | .vxor .. | .vandn .. | .vshl ..
  | .vshr .. | .vclz .. | .vpopc .. | .vcmp .. | .vsel .. | .vcvt .. | .vrcp .. | .vsqrt .. | .vrsq .. | .vexp2 ..
  | .vlog2 .. | .vtanh .. | .vshuf .. | .vrotr .. | .vrotc .. | .vbcr .. | .vbcc .. | .vredr .. | .vredc .. | .vidx ..
  | .pand .. | .por .. | .pxor .. | .pnot .. | .vladd .. | .vlrnd .. | .vlclr .. | .vcond .. | .vview .. => [1, 2]
  | .mlds .. | .mswap | .mzero | .mmul .. => [3]
  | .vld .. | .vldx .. | .vldg .. | .vpref .. | .vldt .. | .fill .. => [4]
  | .vst .. | .vstx .. | .vstg .. | .vamo .. | .spill .. => [5]
  | .cdesc .. | .ccopyIn .. | .ccopyOut .. | .cmcast .. | .tdef .. | .trel .. | .tcfg .. | .cflush .. | .csplit ..
  | .cstat .. => [6]
  | .twait .. | .bacq .. | .brel .. | .fence .. | .sigadd .. | .sigst .. | .sigwait .. | .enq .. | .yield | .trap ..
  | .mbox .. | .mboxReply .. | .eretReplay .. | .eretSkip .. | .rrfillRetry .. | .rrfillData .. | .felog .. | .mstat ..
  | .sysrd .. | .syswr .. | .rdv .. | .red .. | .mask .. | .perm .. | .permVault .. | .coll .. | .cwait ..
  | .cwaitTest .. | .ccancel .. => [7]
  | _ => []

/-- A bundle that holds one instruction, in slot `slot`, with no header bit beside PRESENT (R62, R63). -/
def encodeSole (slot : Nat) (i : Instr) : BundleBits :=
  BitVec.ofNat 512 (2 ^ (496 + slot) + (encode i).toNat * 2 ^ (434 - 62 * slot))

def PHdr.enc (h : PHdr) : Nat :=
  h.csig.toNat * 2 ^ 64 + h.tag.toNat * 2 ^ 32 + b2n h.irq * 2 ^ 12 + h.scope.code * 2 ^ 10 + b2n h.crec * 2 ^ 9
    + b2n h.ord * 2 ^ 8

def BarSig.enc (s : BarSig) (cl al vl : Nat) : Nat :=
  s.cnd.code * 2 ^ cl + s.addr.toNat * 2 ^ al + s.val.toNat * 2 ^ vl

/-- The number of a packet (R275, R276); anything but a packet answers 0. -/
def encodePacketN : Instr → Nat
  | .nop h => h.enc
  | .launch h p =>
    h.enc + 1 + p.khdr.toNat * 2 ^ 456 + p.args.toNat * 2 ^ 400 + p.part.toNat * 2 ^ 393 + p.qmask.toNat * 2 ^ 389
      + b2n p.iinv * 2 ^ 388
  | .gang h p =>
    h.enc + 2 + p.khdr.toNat * 2 ^ 456 + p.args.toNat * 2 ^ 400 + (1 + b2n p.multi) * 2 ^ 398 + p.qmask.toNat * 2 ^ 389
      + b2n p.iinv * 2 ^ 388 + p.pmask.toNat * 2 ^ 256
  | .graph h a n => h.enc + 3 + a.toNat * 2 ^ 456 + n.toNat * 2 ^ 444
  | .barrier h p =>
    h.enc + 4 + p.s0.enc 143 152 320 + p.s1.enc 146 208 384 + p.s2.enc 149 264 448 + p.v.toNat * 2 ^ 140
  | .signal h a st v => h.enc + 5 + a.toNat * 2 ^ 456 + b2n st * 2 ^ 454 + v.toNat * 2 ^ 320
  | .copy h p =>
    h.enc + 6 + p.src.toNat * 2 ^ 456 + p.dst.toNat * 2 ^ 400 + p.part.toNat * 2 ^ 393 + p.len.toNat * 2 ^ 344
  | .indirect h a n => h.enc + 7 + a.toNat * 2 ^ 456 + n.toNat * 2 ^ 440
  | .loopPacket h p l => h.enc + 8 + p.toNat * 2 ^ 496 + l.toNat * 2 ^ 488
  | .pred h p =>
    h.enc + 9 + p.addr.toNat * 2 ^ 456 + p.cnd.code * 2 ^ 453 + p.count.toNat * 2 ^ 445 + p.val.toNat * 2 ^ 320
  | .fetchfence h => h.enc + 10
  | .event h v => h.enc + 11 + v.toNat * 2 ^ 448
  | .phase h => h.enc + 12
  | .cancel h t l k => h.enc + 13 + t.toNat * 2 ^ 480 + l.code * 2 ^ 477 + b2n k * 2 ^ 476
  | .timestamp h a => h.enc + 14 + a.toNat * 2 ^ 456
  | _ => 0

/-- The 64 bytes of a packet as one number (R275). -/
def encodePacket (i : Instr) : BundleBits := BitVec.ofNat 512 (encodePacketN i)

end Sys2Proof
end

