-- ==== Sys2Proof/Machine/Fp.lean ====
section
/-! DEFINITION. Floating-point arithmetic: formats, exact values, one rounding per operation, exceptional results and
conversions (R37 to R41, R47 to R52, R54 to R57). -/

namespace Sys2Proof.Machine

/-- A floating-point format (R37, R38). `noInf` is FP8A, whose top exponent holds normal numbers and one NaN. -/
structure Fmt where
  ebits : Nat
  fbits : Nat
  noInf : Bool := false
  deriving DecidableEq, Repr

def Fmt.fp8a : Fmt := ⟨4, 3, true⟩
def Fmt.fp8b : Fmt := ⟨5, 2, false⟩
def Fmt.bf16 : Fmt := ⟨8, 7, false⟩
def Fmt.fp16 : Fmt := ⟨5, 10, false⟩
def Fmt.fp32 : Fmt := ⟨8, 23, false⟩
def Fmt.w12 : Fmt := ⟨8, 11, false⟩

/-- The format of an F type; an I type answers FP32 and is never asked. -/
def fmtOf : ETy → Fmt
  | .fp8a => .fp8a
  | .fp8b => .fp8b
  | .bf16 => .bf16
  | .fp16 => .fp16
  | _ => .fp32

namespace Fmt

/-- The exponent bias (R37). -/
def bias (f : Fmt) : Nat := 2 ^ (f.ebits - 1) - 1
/-- Bits of the format. -/
def width (f : Fmt) : Nat := 1 + f.ebits + f.fbits
/-- The sign bit's weight. -/
def signBit (f : Fmt) : Nat := 2 ^ (f.ebits + f.fbits)
/-- +∞ of the formats that have one (R39). -/
def infBits (f : Fmt) : Nat := (2 ^ f.ebits - 1) * 2 ^ f.fbits
/-- The canonical NaN (R39). W12's is 0xF_FC00 (R43). -/
def nanBits (f : Fmt) : Nat :=
  if f.noInf then 2 ^ (f.ebits + f.fbits) - 1
  else if f.fbits = 11 then 0xFFC00
  else f.infBits + 2 ^ (f.fbits - 1)
/-- The largest finite value (R39). -/
def maxBits (f : Fmt) : Nat := if f.noInf then 2 ^ (f.ebits + f.fbits) - 2 else f.infBits - 1
/-- The exponent of the least significant bit of a subnormal. -/
def qmin (f : Fmt) : Int := 1 - (f.bias : Int) - (f.fbits : Int)

end Fmt

/-- A decoded floating-point value: NaN, ±∞, or ±m × 2^e exactly; m = 0 is a signed zero (R37, R40). -/
inductive FV where
  | nan
  | inf (neg : Bool)
  | fin (neg : Bool) (m : Nat) (e : Int)
  deriving DecidableEq, Repr

/-- The rounding modes (R44). -/
inductive RM where
  | rne | rtz | rdn | rup
  deriving DecidableEq, Repr

/-- The mode of VCTL.RM (R45). -/
def RM.ofBits (b : BitVec 2) : RM :=
  if b = 0 then .rne else if b = 1 then .rtz else if b = 2 then .rdn else .rup

/-- A rounding field's mode; DYN is the mode in VCTL.RM (R44, R46). -/
def Rnd.mode (r : Rnd) (dyn : RM) : RM :=
  match r with
  | .rne => .rne
  | .rtz => .rtz
  | .rdn => .rdn
  | .rup => .rup
  | .dyn => dyn

/-- The kinds of exceptional result that one operation raised (R48). -/
structure Ev where
  inv : Bool := false
  dz : Bool := false
  ovf : Bool := false
  unf : Bool := false
  deriving DecidableEq, Repr

def Ev.none : Ev := {}

def Ev.or (a b : Ev) : Ev := ⟨a.inv || b.inv, a.dz || b.dz, a.ovf || b.ovf, a.unf || b.unf⟩

def Ev.any (a : Ev) : Bool := a.inv || a.dz || a.ovf || a.unf

/-- Decodes an encoding (R37, R38, R41). -/
def FV.dec (f : Fmt) (b : Nat) : FV :=
  let neg := b / f.signBit % 2 == 1
  let mag := b % f.signBit
  let ex := mag / 2 ^ f.fbits
  let fr := mag % 2 ^ f.fbits
  if f.noInf && mag == 2 ^ (f.ebits + f.fbits) - 1 then .nan
  else if !f.noInf && ex == 2 ^ f.ebits - 1 then (if fr == 0 then .inf neg else .nan)
  else if ex == 0 then .fin neg fr f.qmin
  else .fin neg (2 ^ f.fbits + fr) (f.qmin + (ex : Int) - 1)

def FV.isNan : FV → Bool
  | .nan => true
  | _ => false

def FV.isZero : FV → Bool
  | .fin _ 0 _ => true
  | _ => false

def FV.neg : FV → FV
  | .nan => .nan
  | .inf s => .inf (!s)
  | .fin s m e => .fin (!s) m e

def FV.sign : FV → Bool
  | .nan => false
  | .inf s => s
  | .fin s _ _ => s

def signed (f : Fmt) (neg : Bool) (b : Nat) : Nat := if neg then f.signBit + b else b

/-- m × 2^(−s) rounded to an integer, and whether that was inexact (R44). -/
def roundShift (mode : RM) (neg : Bool) (m s : Nat) : Nat × Bool :=
  let hi := m / 2 ^ s
  let lo := m % 2 ^ s
  let half := 2 ^ s / 2
  let up : Bool :=
    match mode with
    | .rne => half < lo || (half == lo && lo != 0 && hi % 2 == 1)
    | .rtz => false
    | .rdn => neg && lo != 0
    | .rup => !neg && lo != 0
  (if up then hi + 1 else hi, lo != 0)

/-- ±m × 2^e in units of 2^q, rounded (R44). -/
def roundTo (mode : RM) (neg : Bool) (m : Nat) (e q : Int) : Nat × Bool :=
  if q ≤ e then (m * 2 ^ (e - q).toNat, false) else roundShift mode neg m (q - e).toNat

/-- The result of an overflow (R49). -/
def overflowBits (f : Fmt) (mode : RM) (clamp neg : Bool) : Nat :=
  let toInf := !clamp &&
    (match mode with
     | .rne => true
     | .rtz => false
     | .rdn => neg
     | .rup => !neg)
  if toInf then (if f.noInf then f.nanBits else signed f neg f.infBits) else signed f neg f.maxBits

/-- Rounds the exact value ±m × 2^e once to a format (R47 to R49). `clamp` is finite clamping. -/
def roundFin (f : Fmt) (mode : RM) (clamp neg : Bool) (m : Nat) (e : Int) : Nat × Ev :=
  if m = 0 then (signed f neg 0, {})
  else
    let top : Int := e + (Nat.log2 m : Int)
    let qn := top - (f.fbits : Int)
    let q := max qn f.qmin
    let r := roundTo mode neg m e q
    let b := (q - f.qmin).toNat * 2 ^ f.fbits + r.1
    if f.maxBits < b then (overflowBits f mode clamp neg, { ovf := true })
    else
      -- tininess: rounded as if the exponent were unbounded (R48)
      let u := roundTo mode neg m e qn
      let tiny := decide (qn < f.qmin) && decide (u.1 < 2 ^ (f.fbits + (f.qmin - qn).toNat))
      (signed f neg b, { unf := tiny && r.2 })

/-- Delivers a value: canonical NaN, ∞ as the format has it, or a rounded finite value (R40, R49). -/
def deliver (f : Fmt) (mode : RM) (clamp : Bool) : FV → Nat × Ev
  | .nan => (f.nanBits, {})
  | .inf s => (if clamp then signed f s f.maxBits else if f.noInf then f.nanBits else signed f s f.infBits, {})
  | .fin s m e => roundFin f mode clamp s m e

/-- The exact sum of two finite values as an integer multiple of 2^e. -/
def exactSum (s1 : Bool) (m1 : Nat) (e1 : Int) (s2 : Bool) (m2 : Nat) (e2 : Int) : Int × Int :=
  let e := min e1 e2
  let a : Int := (m1 : Int) * 2 ^ (e1 - e).toNat
  let b : Int := (m2 : Int) * 2 ^ (e2 - e).toNat
  ((if s1 then -a else a) + (if s2 then -b else b), e)

/-- The sign of an exact zero sum: that of two zeros of one sign, else − in RDN only (R47). -/
def zeroSumSign (mode : RM) (z1 : Bool) (s1 : Bool) (z2 : Bool) (s2 : Bool) : Bool :=
  if z1 && z2 && s1 == s2 then s1 else mode == .rdn

/-- The exact sum as a value to round, and INVALID for ∞ − ∞ (R47, R48). -/
def FV.add (mode : RM) (a b : FV) : FV × Ev :=
  match a, b with
  | .nan, _ => (.nan, {})
  | _, .nan => (.nan, {})
  | .inf s, .inf t => if s == t then (.inf s, {}) else (.nan, { inv := true })
  | .inf s, .fin .. => (.inf s, {})
  | .fin .., .inf t => (.inf t, {})
  | .fin s m e, .fin t n g =>
    let r := exactSum s m e t n g
    if r.1 = 0 then (.fin (zeroSumSign mode (m == 0) s (n == 0) t) 0 0, {})
    else (.fin (decide (r.1 < 0)) r.1.natAbs r.2, {})

/-- The exact product, and INVALID for 0 × ∞ (R47, R48). -/
def FV.mul (a b : FV) : FV × Ev :=
  match a, b with
  | .nan, _ => (.nan, {})
  | _, .nan => (.nan, {})
  | .inf s, .inf t => (.inf (s != t), {})
  | .inf s, .fin t m _ => if m = 0 then (.nan, { inv := true }) else (.inf (s != t), {})
  | .fin s m _, .inf t => if m = 0 then (.nan, { inv := true }) else (.inf (s != t), {})
  | .fin s m e, .fin t n g => (.fin (s != t) (m * n) (e + g), {})

/-- The exact value of ±(a × b) ± c; a product 0 × ∞ is INVALID whatever the addend (R48). -/
def FV.fma (mode : RM) (negP negC : Bool) (a b c : FV) : FV × Ev :=
  let p := FV.mul a b
  if p.2.inv then (.nan, p.2)
  else FV.add mode (if negP then p.1.neg else p.1) (if negC then c.neg else c)

/-- The quotient, with a sticky bit below 80 quotient bits (R47, R48). -/
def FV.div (a b : FV) : FV × Ev :=
  match a, b with
  | .nan, _ => (.nan, {})
  | _, .nan => (.nan, {})
  | .inf _, .inf _ => (.nan, { inv := true })
  | .inf s, .fin t _ _ => (.inf (s != t), {})
  | .fin s _ _, .inf t => (.fin (s != t) 0 0, {})
  | .fin s m e, .fin t n g =>
    if n = 0 then (if m = 0 then (.nan, { inv := true }) else (.inf (s != t), { dz := true }))
    else if m = 0 then (.fin (s != t) 0 0, {})
    else
      let k := 80 + Nat.log2 n
      let q := m * 2 ^ k / n
      let st := if m * 2 ^ k % n = 0 then 0 else 1
      (.fin (s != t) (2 * q + st) (e - g - (k : Int) - 1), {})

/-- The order of two values that are no NaN; −0 equals +0 (R50). -/
def FV.cmp : FV → FV → Ordering
  | .inf s, .inf t => if s == t then .eq else if s then .lt else .gt
  | .inf s, _ => if s then .lt else .gt
  | _, .inf t => if t then .gt else .lt
  | .fin s m e, .fin t n g =>
    let r := exactSum s m e (!t) n g
    if r.1 < 0 then .lt else if r.1 = 0 then .eq else .gt
  | _, _ => .eq

/-- IEEE minimum: NaN if either is NaN, and −0 below +0 (R50). -/
def FV.min (a b : FV) : FV :=
  if a.isNan || b.isNan then .nan
  else match FV.cmp a b with
  | .lt => a
  | .gt => b
  | .eq => if a.sign then a else b

def FV.max (a b : FV) : FV :=
  if a.isNan || b.isNan then .nan
  else match FV.cmp a b with
  | .lt => b
  | .gt => a
  | .eq => if a.sign then b else a

/-! ### Operations on encodings -/

def fAdd (f : Fmt) (mode : RM) (a b : Nat) : Nat × Ev :=
  let r := FV.add mode (FV.dec f a) (FV.dec f b)
  let d := deliver f mode false r.1
  (d.1, r.2.or d.2)

def fSub (f : Fmt) (mode : RM) (a b : Nat) : Nat × Ev :=
  let r := FV.add mode (FV.dec f a) (FV.dec f b).neg
  let d := deliver f mode false r.1
  (d.1, r.2.or d.2)

def fMul (f : Fmt) (mode : RM) (a b : Nat) : Nat × Ev :=
  let r := FV.mul (FV.dec f a) (FV.dec f b)
  let d := deliver f mode false r.1
  (d.1, r.2.or d.2)

def fFma (f : Fmt) (mode : RM) (negP negC : Bool) (a b c : Nat) : Nat × Ev :=
  let r := FV.fma mode negP negC (FV.dec f a) (FV.dec f b) (FV.dec f c)
  let d := deliver f mode false r.1
  (d.1, r.2.or d.2)

def fDiv (f : Fmt) (mode : RM) (a b : Nat) : Nat × Ev :=
  let r := FV.div (FV.dec f a) (FV.dec f b)
  let d := deliver f mode false r.1
  (d.1, r.2.or d.2)

/-- Minimum and maximum deliver an operand, which is exact (R50). -/
def fMin (f : Fmt) (a b : Nat) : Nat := (deliver f .rne false (FV.min (FV.dec f a) (FV.dec f b))).1
def fMax (f : Fmt) (a b : Nat) : Nat := (deliver f .rne false (FV.max (FV.dec f a) (FV.dec f b))).1

/-- The relations of FCMP and VCMP (R50, R109, R158). -/
def fRel (f : Fmt) (r : VRel) (a b : Nat) : Bool :=
  let x := FV.dec f a
  let y := FV.dec f b
  if x.isNan || y.isNan then
    (match r with
     | .ne | .un => true
     | _ => false)
  else
    let o := FV.cmp x y
    match r with
    | .eq => o == .eq
    | .ne => o != .eq
    | .lt => o == .lt
    | .le => o != .gt
    | .gt => o == .gt
    | .ge => o != .lt
    | .un => false

/-! ### Integers and conversions (R34, R35, R51) -/

/-- The value of a w-bit encoding, two's complement for S (R34). -/
def intVal (sg : Bool) (w b : Nat) : Int :=
  let u := b % 2 ^ w
  if sg && 2 ^ (w - 1) ≤ u then (u : Int) - 2 ^ w else u

/-- The w-bit encoding of an integer, wrapping (R34). -/
def wrap (w : Nat) (v : Int) : Nat := (v % ((2 ^ w : Nat) : Int)).toNat

def intMin (sg : Bool) (w : Nat) : Int := if sg then -((2 ^ (w - 1) : Nat) : Int) else 0
def intMax (sg : Bool) (w : Nat) : Int := if sg then ((2 ^ (w - 1) : Nat) : Int) - 1 else ((2 ^ w : Nat) : Int) - 1

/-- Clamps to a type's range; the flag says that the value changed (R34, R155). -/
def clampInt (sg : Bool) (w : Nat) (v : Int) : Int × Bool :=
  if v < intMin sg w then (intMin sg w, true) else if intMax sg w < v then (intMax sg w, true) else (v, false)

/-- Floating point to integer: rounded, clamped to the nearest bound with INVALID; NaN gives 0 with INVALID (R51). -/
def fToInt (f : Fmt) (mode : RM) (sg : Bool) (w a : Nat) : Nat × Ev :=
  match FV.dec f a with
  | .nan => (0, { inv := true })
  | .inf s => (wrap w (if s then intMin sg w else intMax sg w), { inv := true })
  | .fin s m e =>
    let r : Nat := (roundTo mode s m e 0).1
    let v : Int := if s then -(r : Int) else r
    let c := clampInt sg w v
    (wrap w c.1, { inv := c.2 })

/-- Integer to floating point; zero gives +0 (R51). -/
def intToF (f : Fmt) (mode : RM) (sat sg : Bool) (w a : Nat) : Nat × Ev :=
  let v := intVal sg w a
  roundFin f mode sat (decide (v < 0)) v.natAbs 0

/-- Floating point to floating point (R51). -/
def fToF (f g : Fmt) (mode : RM) (sat : Bool) (a : Nat) : Nat × Ev := deliver g mode sat (FV.dec f a)

/-- Integer to integer: wraps, or clamps with OVERFLOW (R51). -/
def intToInt (sgS : Bool) (ws : Nat) (sgD : Bool) (wd : Nat) (sat : Bool) (a : Nat) : Nat × Ev :=
  let v := intVal sgS ws a
  if sat then
    let c := clampInt sgD wd v
    (wrap wd c.1, { ovf := c.2 })
  else (wrap wd v, {})

/-- Any conversion between types (R51, R160). Equal types: the source, but a NaN becomes the canonical NaN. -/
def convert (ts td : ETy) (mode : RM) (sat : Bool) (a : Nat) : Nat × Ev :=
  if ts == td then
    (if ts.isF then (if (FV.dec (fmtOf ts) a).isNan then (fmtOf ts).nanBits else a % 2 ^ ts.bits, {})
     else (a % 2 ^ ts.bits, {}))
  else if ts.isF then
    if td.isF then fToF (fmtOf ts) (fmtOf td) mode sat a else fToInt (fmtOf ts) mode td.isS td.bits a
  else if td.isF then intToF (fmtOf td) mode sat ts.isS ts.bits a
  else intToInt ts.isS ts.bits td.isS td.bits sat a

/-- Integer division: truncation, all ones for a zero divisor, the wrap of the most negative value by −1 (R35). -/
def intDiv (sg : Bool) (w a b : Nat) : Nat × Ev :=
  if b % 2 ^ w = 0 then (2 ^ w - 1, { dz := true }) else (wrap w ((intVal sg w a).tdiv (intVal sg w b)), {})

def intRem (sg : Bool) (w a b : Nat) : Nat :=
  if b % 2 ^ w = 0 then a % 2 ^ w else wrap w ((intVal sg w a).tmod (intVal sg w b))

/-! ### The long accumulator (R54 to R57) -/

/-- VAL and the four sticky status bits; reserved status bits are written as zero (R54). -/
structure Lacc where
  val : BitVec 320 := 0
  ovf : Bool := false
  nan : Bool := false
  ninf : Bool := false
  pinf : Bool := false
  deriving DecidableEq, Repr

def Lacc.zero : Lacc := {}

/-- Adds an integer multiple of 2^−160; a signed carry out of the range sets OVF (R55). -/
def Lacc.addInt (l : Lacc) (v : Int) : Lacc :=
  let s := l.val.toInt + v
  let out := s < -((2 ^ 319 : Nat) : Int) || ((2 ^ 319 : Nat) : Int) ≤ s
  { l with val := BitVec.ofInt 320 s, ovf := l.ovf || out }

/-- Adds a floating-point value (R55). -/
def Lacc.addF (l : Lacc) : FV → Lacc
  | .nan => { l with nan := true }
  | .inf true => { l with ninf := true }
  | .inf false => { l with pinf := true }
  | .fin s m e =>
    let v : Int := (m : Int) * 2 ^ (e + 160).toNat
    l.addInt (if s then -v else v)

/-- Adds another LACC (R55). -/
def Lacc.addL (l k : Lacc) : Lacc :=
  let r := l.addInt k.val.toInt
  ⟨r.val, r.ovf || k.ovf, l.nan || k.nan, l.ninf || k.ninf, l.pinf || k.pinf⟩

/-- Rounds a LACC once to a format under VLRND's rule (R57, R422). -/
def Lacc.round (l : Lacc) (f : Fmt) (mode : RM) : Nat × Ev :=
  if l.nan || (l.pinf && l.ninf) then (f.nanBits, { inv := !l.nan })
  else if l.ovf then (f.nanBits, { ovf := true })
  else if l.pinf then (signed f false f.infBits, {})
  else if l.ninf then (signed f true f.infBits, {})
  else if l.val = 0 then (0, {})
  else roundFin f mode false (decide (l.val.toInt < 0)) l.val.toInt.natAbs (-160)

/-- The 336 bits of a LACC's 84 slices (R54). -/
def Lacc.bits (l : Lacc) : Nat :=
  l.val.toNat + (b2 l.pinf + 2 * b2 l.ninf + 4 * b2 l.nan + 8 * b2 l.ovf) * 2 ^ 320
where
  b2 (b : Bool) : Nat := if b then 1 else 0

/-- Reads a LACC from its 336 bits (R54). -/
def Lacc.ofBits (b : Nat) : Lacc :=
  let s := b / 2 ^ 320
  ⟨BitVec.ofNat 320 b, s / 8 % 2 == 1, s / 4 % 2 == 1, s / 2 % 2 == 1, s % 2 == 1⟩

end Sys2Proof.Machine
end

