-- ==== Sys2Proof/Machine/Tbl.lean ====
section
/-! DEFINITION. Tables: lists of (key, value) pairs with strictly rising keys, and byte tables that list no entry equal to
what an unlisted key reads as (the canonical form of memory, R195). -/

namespace Sys2Proof

/-- A table from keys to values, sorted by key. -/
abbrev Tbl (α : Type) := List (Nat × α)

namespace Tbl

variable {α : Type}

/-- The entry of a key. -/
def get? (t : Tbl α) (k : Nat) : Option α :=
  match t with
  | [] => none
  | (j, v) :: r => if j = k then some v else get? r k

/-- The entry of a key, or the default that an unlisted key stands for. -/
def get (d : α) (t : Tbl α) (k : Nat) : α := (get? t k).getD d

/-- Writes an entry, keeping the keys in rising order. -/
def put (t : Tbl α) (k : Nat) (v : α) : Tbl α :=
  match t with
  | [] => [(k, v)]
  | (j, w) :: r => if k < j then (k, v) :: (j, w) :: r else if j = k then (k, v) :: r else (j, w) :: put r k v

/-- Removes the entry of a key. -/
def del (t : Tbl α) (k : Nat) : Tbl α := t.filter fun e => e.1 != k

/-- Writes an entry in canonical form: an entry equal to the default is removed. -/
def set [DecidableEq α] (d : α) (t : Tbl α) (k : Nat) (v : α) : Tbl α := if v = d then del t k else put t k v

/-- The keys rise strictly from lo, and no entry equals the default. -/
def wfFrom [DecidableEq α] (d : α) (lo : Nat) : Tbl α → Bool
  | [] => true
  | (k, v) :: r => decide (lo ≤ k) && decide (v ≠ d) && wfFrom d (k + 1) r

end Tbl

end Sys2Proof
end

