-- ==== Sys2Proof/Machine/Types.lean ====
section
/-! DEFINITION. What a sequencer context and a compute die hold: the records that State is made of (R7, R124, R139, R174,
R185, R209, R216, R228, R238, R259, R352, R359, R383). Plain data; the machine's own bookkeeping is marked so. -/

namespace Sys2Proof.Machine

/-! ### The sequencer -/

/-- The scalar registers and predicates of a context (R7): x0 to x63 and q0 to q7, by position. -/
structure Scal where
  x : Vector W64 64
  q : Vector Bool 8
  deriving DecidableEq, Repr

/-- Module reset of the scalar state: all zero but q0 (R7). -/
def Scal.reset : Scal := ⟨Vector.replicate 64 0, (Vector.replicate 8 false).set 0 true⟩

/-- One entry of the loop stack: the count left, S, E, and the back edges taken since LOOP pushed it (R23, R190). -/
structure LoopE where
  count : BitVec 32
  s : VA
  e : VA
  edges : Nat
  deriving DecidableEq, Repr

/-- The states of a launch at its sequencer (R31). FROZEN and SWAPPED are flags beside it (R357). -/
inductive LState where
  | idle | entry | running | exited | drained
  deriving DecidableEq, Repr

/-- Why a translation is asked for, for the permission bits it needs (R362). -/
inductive AccK where
  | load | store | atomic | fetch
  deriving DecidableEq, Repr

/-- A successful translation held by a translation cache: a leaf's level, virtual page, physical page and permission bits
(R364, R365). -/
structure TlbE where
  job : BitVec 16
  lvl : Nat
  vpage : Nat
  ppage : Nat
  sec : Bool
  x : Bool
  w : Bool
  rd : Bool
  deriving DecidableEq, Repr

/-- What an S-slot global access does when it is performed (R111, R114). -/
inductive SOp where
  | load (sx : Bool) (xd : Reg)
  | store (v : W64)
  | amo (op : AOp) (xd : Reg) (b c : W64)
  deriving DecidableEq, Repr

/-- An outstanding S-slot global access with the translation found at step 3 (R113, R115). `xv`: an XINV has dropped its
translation (R365). -/
structure SAcc where
  bsn : BitVec 48
  va : Nat
  pa : Nat
  size : Nat
  dev : Bool
  op : SOp
  xv : Bool := false
  deriving DecidableEq, Repr

/-- One tree packet with its sideband (R77, R78, R190, R236, R449). `words` are the scalar words and `wregs` the registers
they came from, in the order of R78. `replay` is the faulted-die mask of a replay-flagged packet (R386). -/
structure Packet where
  rv : Bool
  rep : Bool
  slots : List (Nat × Instr)
  words : List W64
  wregs : List Reg
  bsn : BitVec 48
  addr : VA
  rm : BitVec 2
  pass : Nat
  rotn : BitVec 48
  desc : Option (BitVec 512 × Nat)
  replay : Option W64
  deriving DecidableEq, Repr

/-- An operation that gathers reports from the dies of a context (R256, R330, R340, R404, R407). -/
inductive GKind where
  | fence (sc : Scope)
  | rdv (tag : BitVec 16)
  | sigadd (sc : Scope) (xd : Reg) (va pa : Nat) (v : W64)
  | sigst (sc : Scope) (va pa : Nat) (v : W64)
  | brel (region : Nat)
  | red (op : YRed) (xd : Reg)
  | felog (xd xe : Reg)
  | mstat (xd : Reg)
  | coll
  deriving DecidableEq, Repr

/-- A gathering operation in progress: its bundle, the dies that report, the rounding mode of its sideband, the GOC of a
gang operation, and the stores counted by the Vyivo ports at its issue (R270, R399, R407). -/
structure Gather where
  bsn : BitVec 48
  kind : GKind
  dies : List Nat
  rm : BitVec 2
  goc : BitVec 32
  ports : List (Nat × Nat × Nat)
  deriving DecidableEq, Repr

/-- A gang operation of a multi-stream gang that has issued and not completed: its GOC, bundle and instruction (R399). -/
structure GOp where
  goc : BitVec 32
  bsn : BitVec 48
  addr : VA
  ins : Instr
  /-- the gang's streams have been found to differ in it: GANG_MISMATCH on each -/
  differs : Bool := false
  deriving DecidableEq, Repr

/-- What keeps a context from issuing later bundles (R256, R264, R331, R358, R403, R425). -/
inductive Wait where
  | none
  /-- a FENCE, an RDV: until the gather of this BSN completes -/
  | gather (bsn : BitVec 48)
  /-- a BACQ: until the grant of the bollard at this address -/
  | grant (addr : Nat)
  /-- a SIGWAIT: condition, scope, destination, address, compare value -/
  | sig (c : PCond) (sc : Scope) (xd : Reg) (va pa : Nat) (v : W64)
  /-- a SIGWAIT whose address an XINV has left without a translation: it translates again at each evaluation (R331, R365; log 22) -/
  | sigLost (c : PCond) (sc : Scope) (xd : Reg) (va : Nat) (v : W64)
  /-- a CWAIT: the destination, the handle, and the stores counted by the Vyivo ports that its acquire waits for (R432) -/
  | coll (xd : Reg) (h : W64) (ports : List (Nat × Nat × Nat))
  /-- a YIELD of the purser pair: until a TRAPPEND, REQPEND or RRPEND bit rises -/
  | rise
  deriving DecidableEq, Repr

/-- A bollard that a launch binds: region index, index in the unit, record address (R215, R263). -/
structure Bound where
  region : Nat
  bol : Nat
  addr : Nat
  deriving DecidableEq, Repr

/-- The states of a context's own collective record (R423 to R426). -/
inductive CStat where
  | waitTok | requested | done (code : Nat)
  deriving DecidableEq, Repr

/-- A collective of a context or a graph node: its key, descriptor, bundle, token and the dies that produce it, destination range,
progress, and when it completed (R419, R423 to R425). -/
structure CollRec where
  gid : Nat
  seq : Nat
  desc : BitVec 512
  tout : Tok
  bsn : BitVec 48
  dies : List Nat
  dst : Nat × Nat
  st : CStat
  order : Nat
  /-- the bytes of its source that it has read, element by element, and how many bytes of its destination it has written (R260, R424) -/
  got : List Byte := []
  pos : Nat := 0
  deriving DecidableEq, Repr

/-- A CCANCEL whose decision has not returned, with its bundle (R426). -/
structure CancelReq where
  xd : Reg
  bsn : BitVec 48
  gid : Nat
  seq : Nat
  deriving DecidableEq, Repr

/-- A cause that stops a bundle at the sequencer: code, detail, data address, user code, slot (R350, R356, R357). -/
structure Trap where
  cause : BitVec 16
  detail : BitVec 8 := 0
  data : VA := 0
  ucode : BitVec 16 := 0
  slot : Nat := 0
  deriving DecidableEq, Repr

/-- The frozen-context record without its per-lane masks (R356, R357). -/
structure Fcr where
  dief : Bool := false
  die : Nat := 0
  quad : Nat := 0
  slot : Nat := 0
  cmask : BitVec 8 := 0
  detail : BitVec 8 := 0
  ucode : BitVec 16 := 0
  cause : BitVec 16 := 0
  f : BitVec 48 := 0
  addrF : VA := 0
  g : BitVec 48 := 0
  data : VA := 0
  nlane : Nat := 0
  flane : Nat := 0
  field : SlotBits := 0
  scw : List W64 := []
  scr : List Reg := []
  lmask : List Nat := []
  deriving DecidableEq, Repr

/-- The sequencer checkpoint of a segment (R383). `pend`: registers whose results were still to come when it was taken, with the bundles
that produce them; it takes them as they arrive. -/
structure SeqCkpt where
  sc : Scal
  pend : List (Reg × BitVec 48)
  pc : VA
  bsn : BitVec 48
  loops : List LoopE
  rm : BitVec 2
  goc : BitVec 32
  dmasks : W64
  rotn : BitVec 48
  deriving DecidableEq, Repr

/-- A rewind in progress (R386): the faulted dies, those restored, the issue BSN before the rewind (replayed packets lie
below it), the BSN and address of the segment's RV bundle if it had issued, whether the replay has begun, and the bank of the error
that was consumed. -/
structure Rewind where
  faulted : List Nat
  restored : List Nat
  upto : BitVec 48
  expect : Option (BitVec 48 × VA)
  replaying : Bool
  bank : Nat
  deriving DecidableEq, Repr

/-- The segment a context is in (R383 to R386): its checkpoint, the BSN of its entry, whether an RV bundle has closed it and
waits for its commit (its BSN and address) with the next segment's checkpoint, whether it and the next one are unrepeatable, the
consumption counts and the lockstep mismatches of both, and a rewind in progress. -/
structure Seg where
  ckpt : Option SeqCkpt
  entry : BitVec 48
  closing : Option (BitVec 48 × VA)
  next : Option SeqCkpt
  unrep : Bool
  unrepNext : Bool
  consumed : Nat
  mismatches : Nat
  consumedNext : Nat
  mismatchesNext : Nat
  rewind : Option Rewind
  deriving DecidableEq, Repr

def Seg.reset : Seg := ⟨none, 0, none, none, false, false, 0, 0, 0, 0, none⟩

/-- The life of a speculative run (R304, R319). -/
inductive SpecSt where
  | running
  /-- an operation of R309 marked stall has reached issue -/
  | stalled
  | finished | discarding
  deriving DecidableEq, Repr

/-- A speculative run on a context: its berth, the predicted launch, its argument copy and don't-care words, the versions it
recorded by region index, and its state (R299, R304, R310, R319). -/
structure Spec where
  berth : Nat
  pred : LaunchP
  args : List Byte
  dontcare : W64
  versions : List (Nat × BitVec 32)
  st : SpecSt
  deriving DecidableEq, Repr

/-! ### The die -/

/-- One lane: 512 slices of 4 bits, slice n at bits 4n+3:4n, and p0 to p15 (R124). -/
structure Lane where
  sl : BitVec 2048
  pr : BitVec 16
  deriving DecidableEq, Repr

/-- A lane after reset and at launch entry: slices zero, p0 true (R124, R125). -/
def Lane.zero : Lane := ⟨0, 1⟩

/-- The register state of a die that bundles read and write whole (R70, R124). Lanes are by position: 1,024 × quadrant +
lane. -/
structure DieRegs where
  lanes : List Lane
  prb : BitVec 3
  views : List W64
  dcs : List W64
  dmask : W64
  qmask : BitVec 4
  deriving DecidableEq, Repr

/-- What one slot writes in one lane: a mask and a value over the slices, and over the predicates. -/
structure LaneW where
  m : BitVec 2048 := 0
  v : BitVec 2048 := 0
  pm : BitVec 16 := 0
  pv : BitVec 16 := 0
  deriving DecidableEq, Repr

/-- A result in flight: the slot that issued it, the quadrants and physical slices of its write reservation, the predicates
and dc registers it writes, its lane writes by position, its dc values and the events of each quadrant (R60, R136, R141). -/
structure Flight where
  bsn : BitVec 48
  addr : VA
  slot : Nat
  load : Bool
  qm : BitVec 4
  ws : BitVec 512
  pw : BitVec 16
  lanes : List LaneW
  dcs : List (Nat × W64)
  evs : List (Nat × Ev)
  /-- entries of each quadrant's scoreboard of vertical transfers that it holds (R204) -/
  tags : List Nat := []
  deriving DecidableEq, Repr

/-- A weight plane as 128 columns of 128 W12 values; a missing column or value is +0 (R174). -/
abbrev Plane := List (List (BitVec 20))

/-- The planes and matrix tile status of one quadrant (R174, R191); for each plane, whether an error has made it bad (R375) and
the BSN of the MLDS that filled it (R382). -/
structure Arr where
  act : Plane
  shadow : Plane
  nanb : W64
  badA : Bool
  badS : Bool
  fillA : Option (BitVec 48)
  fillS : Option (BitVec 48)
  deriving DecidableEq, Repr

def Arr.reset : Arr := ⟨[], [], 0, false, false, none, none⟩

/-- The first-event log of one quadrant (R60). -/
structure FeLog where
  valid : Bool := false
  slot : Nat := 0
  kind : Nat := 0
  sinv : Bool := false
  sovf : Bool := false
  sdz : Bool := false
  sunf : Bool := false
  bsn : BitVec 48 := 0
  addr : VA := 0
  deriving DecidableEq, Repr

/-- Tile states (R209). -/
inductive TState where
  | empty | filling | ready | draining
  deriving DecidableEq, Repr

/-- A tile entry (R209); SIZE and OFFSET in 4 KiB units. -/
structure Tile where
  st : TState := .empty
  pend : Bool := false
  busy : Bool := false
  swz : Bool := false
  ownv : Bool := false
  owner : Tok := 0
  size : BitVec 13 := 0
  off : BitVec 16 := 0
  deriving DecidableEq, Repr

/-- A descriptor slot: its record when valid, and the last CDESC's code (R216, R244). -/
structure Desc where
  record : Option (BitVec 512) := none
  code : Nat := 0
  deriving DecidableEq, Repr

/-- A line of a die's cache ways: 128 bytes, those that are valid in it, and those that are dirty (R200, R251). -/
structure CLine where
  line : Nat
  data : BitVec 1024
  valid : BitVec 128
  dirty : BitVec 128
  deriving DecidableEq, Repr

/-- What a lane's global access does (R227, R232). -/
inductive LOp where
  | load
  | store (v : W64)
  | amo (op : AOp) (b c : W64)
  deriving DecidableEq, Repr

/-- One lane's global access: its place in the die's order, bundle, slot, lane, destination slices, address, size and kind;
its translation once found; and whether an XINV dropped that translation (R224, R229, R365). -/
structure GAcc where
  sn : Nat
  bsn : BitVec 48
  addr : VA
  slot : Nat
  lane : Nat
  dst : List Nat
  /-- the destination slices that no higher slot of its bundle writes (R71) -/
  keep : BitVec 2048
  va : Nat
  size : Nat
  dev : Bool
  op : LOp
  pa : Option Nat
  xv : Bool
  /-- the code of its walk, which has failed, while walks of earlier accesses go on (R359) -/
  bad : Option (BitVec 8) := none
  deriving DecidableEq, Repr

/-- One lane's access to another die's scratchpad (R196, R228). -/
structure RAcc where
  sn : Nat
  bsn : BitVec 48
  addr : VA
  slot : Nat
  lane : Nat
  dst : List Nat
  keep : BitVec 2048
  die : Nat
  off : Nat
  size : Nat
  op : LOp
  field : SlotBits
  scw : List W64
  /-- the die slots of its bundle (R357) -/
  present : BitVec 8
  deriving DecidableEq, Repr

/-- A reservation that one slot's outstanding lane accesses hold until the last has landed (R136, R221). -/
structure Resv where
  bsn : BitVec 48
  slot : Nat
  qm : BitVec 4
  ws : BitVec 512
  deriving DecidableEq, Repr

/-- An MMUL in flight: its A and ACC slices by stream row group, the planes it captured by quadrant, the rows it has latched
(for each row the activations of each quadrant), and the next row to drain (R185 to R189). `fills`: by quadrant, the MLDS that filled the
captured plane; `clip`: by lane, the slices that a higher slot of its bundle writes (R71, R189); `bad`: quadrants whose plane an error has
made bad; `hurt`: slices with bad parity that its rows meet, as row, lane and slice; `live`: quadrants with a live-in ACC slice
(R382). -/
structure MMulOp where
  bsn : BitVec 48
  addr : VA
  tout : Tok
  aty : ATy
  add : Bool
  rows : Nat
  qm : BitVec 4
  aSl : List (List Nat)
  cSl : List (List Nat)
  planes : List (Nat × Plane)
  fills : List (Nat × Option (BitVec 48))
  latched : List (List (Nat × List Nat))
  next : Nat
  clip : List (BitVec 2048)
  bad : List Nat
  hurt : List (Nat × Nat × Nat)
  live : List Nat
  deriving DecidableEq, Repr

/-- An entry of the M-slot order: a weight load with its converted planes, its events and the granules with an uncorrectable error that it
met (R381), or an MZERO (R176, R182, R184). -/
inductive MItem where
  | load (bsn : BitVec 48) (addr : VA) (tout : Tok) (tile : Nat) (planes : List (Nat × Plane)) (evs : List (Nat × Ev))
      (bad : List Nat)
  | zero (qm : BitVec 4)
  deriving DecidableEq, Repr

/-- What an engine command does (R237, R240, R242, R411). -/
inductive CmdK where
  | copyIn | copyOut
  /-- a multicast fill: its mask and the masked dies that take part, the reader first (R214) -/
  | mcast (mask : W64) (dies : List Nat)
  | flush (inv : Bool)
  /-- a vault PERM past its lockstep: the bytes to write here, if any, and where -/
  | perm (data : Option (List Byte)) (off : Nat)
  /-- a COPY packet's bytes, source and destination in global memory, of a Landing task (R288) -/
  | packet (src dst len task : Nat)
  deriving DecidableEq, Repr

/-- An engine command in flight with its private copies (R236 to R242). `limit`: the accesses a CFLUSH waits for; `buf`: the
elements that a multicast has read, as tile byte and value; `field` and `scw` are its slot and scalar words. -/
structure Cmd where
  bsn : BitVec 48
  addr : VA
  kind : CmdK
  tout : Tok
  tile : Nat
  desc : BitVec 512
  xo : W64
  xb : W64
  dieIdx : Nat
  dsel : DSel
  started : Bool
  limit : Nat
  buf : Option (List (Nat × Nat))
  slot : Nat
  field : SlotBits
  scw : List W64
  present : BitVec 8
  /-- it runs on while its context is saved (R369) -/
  detached : Bool
  /-- elements that the engine has moved (R260) -/
  pos : Nat := 0
  /-- how many elements of its source a multicast has read, and their data (R214, R260) -/
  rpos : Nat := 0
  part : List (Nat × Nat) := []
  /-- a unit that a COPY packet has moved carried poison (R288) -/
  hurt : Bool := false
  /-- it faulted, and another fault of its die is the one that stands: it starts again, unless that one's bundle is its own and is skipped
  (R353, R355) -/
  again : Bool := false
  deriving DecidableEq, Repr

/-- A retry-ring entry (R360): the access and its walk code. -/
structure RetryE where
  acc : GAcc
  walk : BitVec 8
  /-- its bytes of the system way hold an uncorrectable error (R375) -/
  bad : Bool := false
  deriving DecidableEq, Repr

/-- What a die reports for a gathering operation of a bundle: the accesses that must be performed first, and its term
(R256, R340, R404). -/
structure Rep where
  bsn : BitVec 48
  limit : Nat
  enabled : Bool
  term : W64
  term2 : W64
  log : List FeLog
  deriving DecidableEq, Repr

/-- What a faulted die redoes on a replay (R353, R355). -/
inductive Redo where
  /-- the slots of the packet that are absent from the completion mask, from its latched operands -/
  | slots (p : Packet) (src : DieRegs) (cmask : BitVec 8)
  /-- the failing lanes of a remote access -/
  | remote (accs : List RAcc)
  /-- a faulted engine command -/
  | cmd (c : Cmd)
  deriving DecidableEq, Repr

/-- A die fault (R352, R357): the bundle, slot, cause, data address, failing lanes, walk code, and what a replay redoes. -/
structure DFault where
  bsn : BitVec 48
  addr : VA
  slot : Nat
  cause : BitVec 16
  data : Nat
  lanes : List Nat
  walk : BitVec 8
  field : SlotBits
  scw : List W64
  cmask : BitVec 8
  redo : Redo
  deriving DecidableEq, Repr

/-- A bundle in the replay queue, for the repair of a slice with bad parity (R379, R380): the packet, its operands, and the data that its
loads have returned, as slot, lane and lane write. -/
structure Replay where
  pkt : Packet
  src : DieRegs
  /-- PG of each slot -/
  pgs : List (Nat × PIdx)
  data : List (Nat × Nat × LaneW)
  deriving DecidableEq, Repr

/-- The die checkpoint of a segment (R383): the quadrants enabled when it was taken, with the predicates by lane and the first-event logs
of those, PRB, views, dc0 to dc3, masks, tokens. -/
structure DieCkpt where
  quads : BitVec 4
  prs : List (BitVec 16)
  prb : BitVec 3
  views : List W64
  dcs : List W64
  dmask : W64
  qmask : BitVec 4
  toks : List Bool
  felogs : List FeLog
  deriving DecidableEq, Repr

/-- A line of the Vitrine: a 64-byte line of the global space, the bytes it holds (R306). -/
structure VLine where
  line : Nat
  data : BitVec 512
  mask : BitVec 64
  deriving DecidableEq, Repr

/-- A compute die as one partition's context sees it (R124 and the chapters the fields name). -/
structure Die where
  regs : DieRegs
  consts : List W64
  arrs : List Arr
  felogs : List FeLog
  /-- true: PEND (R259) -/
  toks : List Bool
  /-- slots, by bundle, whose token a higher slot of the bundle names too: their completion does not write it (R71) -/
  mutes : List (BitVec 48 × Nat)
  tiles : Tbl Tile
  descs : Tbl Desc
  /-- VSPLIT.W (R199) and the CSPLIT code (R201) -/
  w : BitVec 4
  wcode : Nat
  /-- scratchpad bytes by linear offset (R198) -/
  vault : Tbl Byte
  /-- bytes of granules with an uncorrectable error that nothing has written since (R375) -/
  vpoison : List Nat
  /-- 4,096 spill slices per lane (R206) -/
  spill : Tbl (BitVec 16384)
  cache : List CLine
  cpoison : List Nat
  queue : List Packet
  frontier : Option (BitVec 48)
  /-- a stop has arrived, or a fault of its own has stopped it (R352) -/
  stopped : Bool
  fault : Option DFault
  /-- the slots of a faulted bundle that run again after a resume (R355) -/
  redo : Option Redo
  flights : List Flight
  mmuls : List MMulOp
  mq : List MItem
  /-- outstanding global and remote lane accesses in order, and the reservations they hold -/
  gq : List GAcc
  rq : List RAcc
  resv : List Resv
  accSeq : Nat
  tlb : List TlbE
  cmds : List Cmd
  /-- TWAIT: tokens that hold every later bundle (R327); a die FENCE: accesses below this number hold them (R329) -/
  twait : List Tok
  fence : Option Nat
  /-- a BACQ holds every later bundle until the grant (R264); an RV bundle until the segment commits (R384), and whether the die was
  disabled at that bundle (R407) -/
  bacq : Option Nat
  commitWait : Bool
  commitOff : Bool
  reps : List Rep
  ring : Tbl RetryE
  ringNext : Nat
  heldLanes : List RetryE
  /-- pending marks: lane and physical slices (R359) -/
  marks : List (Nat × BitVec 512)
  /-- physical slices whose parity is bad, by lane position (R380) -/
  parity : List (Nat × Nat)
  /-- units, spill granules (lane, granule) and Vitrine lines with an uncorrectable error (R375) -/
  bad : List DieUnit
  sbad : List (Nat × Nat)
  vbad : List Nat
  /-- BSN and slot of the last writer of each physical slice, by 512 × quadrant + slice (R379) -/
  lastw : Tbl (BitVec 48 × Nat)
  replayQ : List Replay
  ckpt : Option DieCkpt
  vitrine : List VLine
  /-- a PERM held at the queue head of every die (R409) -/
  permHeld : Bool
  /-- data of a slice PERM that has passed its lockstep: lane writes to land, and its reservation (R410) -/
  permW : Option Flight
  deriving DecidableEq, Repr

/-- A die after module reset with n lanes and its job-default split (R124, R174, R199, R209, R259). -/
def Die.reset (n : Nat) : Die :=
  { regs := { lanes := List.replicate n Lane.zero, prb := 0, views := List.replicate 8 0, dcs := List.replicate 4 0,
              dmask := 0, qmask := 0 },
    consts := List.replicate 64 0, arrs := List.replicate 4 Arr.reset, felogs := List.replicate 4 {},
    toks := List.replicate 64 false, mutes := [], tiles := [], descs := [], w := 8, wcode := 0, vault := [], vpoison := [], spill := [],
    cache := [], cpoison := [], queue := [], frontier := none, stopped := false, fault := none,
    redo := none, flights := [], mmuls := [], mq := [], gq := [], rq := [], resv := [], accSeq := 0, tlb := [], cmds := [],
    twait := [], fence := none, bacq := none, commitWait := false, commitOff := false, reps := [], ring := [], ringNext := 0, heldLanes := [],
    marks := [], parity := [], bad := [], sbad := [], vbad := [], lastw := [], replayQ := [], ckpt := none, vitrine := [], permHeld := false, permW := none }

/-! ### The context -/

/-- A sequencer context (R7 and the chapters the fields name). -/
structure Ctx where
  lst : LState
  frozen : Bool
  swapped : Bool
  /-- a pre-emption or a die fault has stopped or is stopping the context (R352, R368) -/
  stopping : Bool
  /-- a pre-emption has stopped it and its save is in progress (R368, R370) -/
  saved : Bool
  /-- a pre-emption is pending (R334) -/
  preempt : Bool
  killed : Bool
  sc : Scal
  pc : VA
  bsn : BitVec 48
  loops : List LoopE
  slm : Tbl Byte
  /-- the launch record (R13) -/
  lrec : BitVec 512
  /-- the partitions of its gang, rising (R293, R398) -/
  gparts : List Nat
  ucode : BitVec 16
  /-- VCTL.RM (R45) -/
  rm : BitVec 2
  /-- scalar destinations that wait for a result, with the bundle that produces it (R19, R354) -/
  pendX : List (Reg × BitVec 48)
  goc : BitVec 32
  /-- the GOC after the last gang operation that the multi-stream gang has completed; a rewind leaves it (R402) -/
  gdone : BitVec 32
  dmasks : W64
  rotn : BitVec 48
  cycles : Nat
  /-- packets sent and not yet credited, per die (R139) -/
  used : Tbl Nat
  /-- tree packets in flight to each die (R77) -/
  wire : List (Nat × Packet)
  /-- credits on their way back, one die per entry (R139) -/
  credits : List Nat
  resend : List Packet
  icache : List (Nat × BitVec 16 × BundleBits)
  tlb : List TlbE
  /-- outstanding S-slot global accesses in program order (R115) -/
  port : List SAcc
  fcr : Fcr
  trappend : Bool
  /-- outstanding MBOX request with its destination and bundle, and a reply kept for resume (R337) -/
  mbox : Option ((Reg × BitVec 48) × W64 × W64)
  mboxKept : Option W64
  wait : Wait
  gathers : List Gather
  gops : List GOp
  bound : List Bound
  held : List Nat
  asked : Option (Nat × Bool)
  colls : List CollRec
  /-- completed collectives whose records were reused: key and code (R425) -/
  expired : List (Nat × Nat × Nat)
  cancels : List CancelReq
  seg : Seg
  spec : Option Spec
  task : Option Nat
  /-- a lockstep mismatch waits for the next bundle (R377) -/
  mismatch : Bool
  /-- units with an uncorrectable error (R375) -/
  bad : List SeqUnit
  /-- the die fault that the frozen-context record reports, with its die (R353, R355) -/
  recFault : Option (Nat × DFault)
  /-- tokens that the die slots of a bundle frozen by a sequencer cause would have produced (R338) -/
  trapToks : List Tok
  deriving DecidableEq, Repr

/-- A context after module reset: idle, with the Module reset column of R7. -/
def Ctx.reset : Ctx :=
  { lst := .idle, frozen := false, swapped := false, stopping := false, saved := false, preempt := false, killed := false,
    sc := Scal.reset, pc := 0, bsn := 0, loops := [], slm := [], lrec := 0, gparts := [], ucode := 0, rm := 0, pendX := [], goc := 0, gdone := 0,
    dmasks := 0, rotn := 0, cycles := 0, used := [], wire := [], credits := [], resend := [], icache := [],
    tlb := [], port := [], fcr := {}, trappend := false, mbox := none, mboxKept := none, wait := .none, gathers := [], gops := [],
    bound := [], held := [], asked := none, colls := [], expired := [], cancels := [], seg := Seg.reset, spec := none, task := none,
    mismatch := false, bad := [], recFault := none, trapToks := [] }

end Sys2Proof.Machine
end

