-- ==== Sys2Proof/Machine/LandTypes.lean ====
section
/-! DEFINITION. What the Landing, the Curator, the bollard unit, the partitions and the jobs hold: the records that State is
made of (R215, R263, R264, R272 to R301, R342, R444). Plain data. -/

namespace Sys2Proof.Machine

/-! ### Queues and berths -/

/-- Where a berth executes: the ring, or an indirect buffer of `count` packets at `base`; the next packet; and a LOOP range
in it as first packet, length and passes left (R278, R279); `win`: packets fetched ahead from `pos` on, in execution order (R281). -/
structure Frame where
  buf : Option (Nat × Nat)
  pos : Nat
  loop : Option (Nat × Nat × Nat)
  win : List BundleBits
  deriving DecidableEq, Repr

/-- A launch history entry (R298). `gang` and `multi` are TYPE and FORM. -/
structure Hist where
  khdr : BitVec 56
  entry : BitVec 56
  gang : Bool
  multi : Bool
  part : BitVec 7
  pmask : BitVec 128
  qmask : BitVec 4
  hash : W64
  args : BitVec 56
  deriving DecidableEq, Repr

/-- A mapped berth (R272 to R274, R277 to R284, R294, R298 to R301). `frames`: the innermost first; `after`: dispatches since RD was
written to RDPTR; `last`: order of its last doorbell; `barrier`: the task of the BARRIER that waits; `cut`: ring packets below it that a cancel of
the job has ended (R290). -/
structure Berth where
  queue : Nat
  ring : Nat
  rdptr : Nat
  job : BitVec 16
  home : Nat
  log2n : Nat
  cls : Nat
  wr : Nat
  frames : List Frame
  barrier : Option Nat
  cut : Nat
  curCls : Nat
  passed : Nat
  after : Nat
  /-- ring index of the packet being dispatched, or of the INDIRECT that encloses it: where an abort begins (R289) -/
  abortAt : Nat
  /-- the header of the ring's INDIRECT whose buffer encloses that packet (R289) -/
  ownHdr : Option PHdr := none
  last : Nat
  hist : List Hist
  conf : Nat
  pred : Option Hist
  predAge : Nat
  phase : Nat
  deriving DecidableEq, Repr

/-- A queue that waits for a berth: its pending bit and the highest doorbell value, in order of first doorbell (R274). -/
structure WaitQ where
  queue : Nat
  value : Nat
  cls : Nat
  deriving DecidableEq, Repr

/-! ### Tasks -/

/-- What a task is (R286). A phase holds the identifier of the phase it closes; a cancel its targets. -/
inductive TaskK where
  | launch (p : LaunchP)
  | gang (p : GangP)
  | graph
  | copy (p : CopyP)
  | collNode (desc : BitVec 512)
  | signal (addr : Nat) (store : Bool) (v : W64)
  | timestamp
  | event (payload : W64)
  | nop
  | phase (id : Nat)
  | cancel (targets : List Nat)
  /-- a BARRIER that waits (R284) -/
  | barrier (p : BarrierP)
  deriving DecidableEq, Repr

/-- What the Landing has read of a kernel for a launch (R89 to R91, R287): the header's address and fields, view defaults, constant
table, region list and the launch's own argument copy. -/
structure Prep where
  khdr : BitVec 56
  entry : VA
  vdmask : BitVec 8
  vdef : List W64
  consts : List W64
  regs : List W64
  args : List Byte
  nospec : Bool
  dontcare : W64
  iinv : Bool
  deriving DecidableEq, Repr

/-- The progress of a task. -/
inductive TaskSt where
  /-- a launch or gang waits for its partitions -/
  | waiting
  | running
  /-- its completion rule is met with this status; the record and the signal remain -/
  | ended
  /-- its record is written, and the release of its signal is in progress (R270, R285) -/
  | signals
  deriving DecidableEq, Repr

/-- A task of the Landing (R285, R286): header, berth, queue's job, event ring and class, parent graph and node, the
identifier of its record, contexts, status so far, FAULT field and user code, and its kill or cancel marks. -/
structure Task where
  kind : TaskK
  hdr : PHdr
  berth : Nat
  queue : Nat
  job : BitVec 16
  home : Nat
  cls : Nat
  phase : Nat
  parent : Option (Nat × Nat)
  st : TaskSt
  launchId : W64
  ctxs : List Nat
  status : Nat
  fault : BitVec 32
  ucode : BitVec 16
  cancelled : Bool
  prep : Option Prep
  /-- virtual ranges it writes, for VERSION (R312) -/
  writes : List (Nat × Nat)
  /-- the collective that a collective node has issued (R420) -/
  coll : Option CollRec
  /-- the stores counted by the Vyivo ports that the release in progress waits for (R268, R270) -/
  ports : Option (List (Nat × Nat × Nat)) := none
  deriving DecidableEq, Repr

/-- States of a graph node (R292). -/
inductive NodeSt where
  | blocked | ready (since : Nat) | running | done (status : Nat)
  deriving DecidableEq, Repr

/-- A graph node: its work, predecessors and state (R291, R292). -/
structure Node where
  work : TaskK
  preds : List Nat
  st : NodeSt
  deriving DecidableEq, Repr

/-- A graph in execution, by its task (R291, R292). -/
structure Graph where
  nodes : List Node
  firstFail : Nat
  deriving DecidableEq, Repr

/-- A gang's reservation: partitions still to obtain and those held, and its raised class (R293). -/
structure Resvn where
  todo : List Nat
  held : List Nat
  cls : Nat
  deriving DecidableEq, Repr

/-- A phase of a queue: its identifier is its key, which is never 0; its job, whether a task of it has started, the first failing status so
far, and whether a PHASE packet closed it (R286). -/
structure Phase where
  queue : Nat
  job : BitVec 16
  used : Bool
  status : Nat
  closed : Bool
  deriving DecidableEq, Repr

/-- A record waiting for space in a ring, with the task whose signal it holds (R297). -/
structure HeldRec where
  rec0 : BitVec 256
  irq : Bool
  task : Option Nat
  deriving DecidableEq, Repr

/-! ### Bollards -/

/-- The live state of a bollard by its record's physical address (R263, R264): the exclusive holder, the shared holders,
RELSEQ, waiting requests in order (context, exclusive), and how many launches bind it. -/
structure Bollard where
  va : Nat
  job : BitVec 16
  excl : Option Nat
  shared : List Nat
  relseq : BitVec 48
  reqs : List (Nat × Bool)
  binders : Nat
  writeback : Bool
  deriving DecidableEq, Repr

/-! ### Partitions and jobs -/

/-- A partition (R215, R296, R297, R320, R342, R344, R444). PJOB: VALID and the job. -/
structure Part where
  ctrs : List W64
  evsel : List (BitVec 8)
  evring : BitVec 56
  pjobw : BitVec 17
  regions : Tbl (BitVec 256)
  heldRecs : List HeldRec
  irqs : Nat
  /-- outputs: MSI-X vectors raised so far (R297, R439) -/
  msix : Nat
  /-- the gang task that holds the partition (R293) -/
  gang : Option Nat
  deriving DecidableEq, Repr

/-- The job that a partition belongs to (R444). -/
def Part.pjob (t : Part) : Option (BitVec 16) := if t.pjobw.getLsbD 16 then some (t.pjobw.setWidth 16) else none

def Part.reset : Part :=
  { ctrs := List.replicate 64 0, evsel := List.replicate 56 0, evring := 0, pjobw := 0, regions := [], heldRecs := [],
    irqs := 0, msix := 0, gang := none }

/-- A job's settings (R286, R306, R444): translation root, Vitrine capacity code, berth idle time, default split, doorbell
window address; whether Cimus has closed it, and whether its completion has been recorded; how many launch identifiers it has used
(R13); and the first failing status of its phases, with the HOMEPART of the last one that completed (R286, R296). -/
structure Job where
  xroot : W64
  vitcap : BitVec 2
  idleto : W64
  vsdef : BitVec 4
  dbva : BitVec 56
  closed : Bool
  reported : Bool
  nextLid : Nat
  status : Nat
  home : Option Nat
  deriving DecidableEq, Repr

/-- A job at the reset values of its secure-block registers (R444). -/
def Job.reset : Job :=
  { xroot := 0, vitcap := 0, idleto := 100, vsdef := 8, dbva := 0, closed := false, reported := false, nextLid := 0, status := 0, home := none }

end Sys2Proof.Machine
end

