-- ==== Sys2Proof/Machine/State.lean ====
section
/-! DEFINITION. The state of one OX64 module, its faults and refusals, and its reset (R7, R124 and every chapter the fields
name). INVENTORY.md lists every piece with its rule and reset value. -/

namespace Sys2Proof.Machine

/-- What an agenda entry asks for: a step of the table, the next bundle of a context, or a pre-emption by the Landing (log 2). -/
inductive Act where
  | ev (i : Instr)
  | run (ctx : Nat)
  /-- the Landing's scheduling of a partition's work pre-empts its context (R367) -/
  | preempt (ctx : Nat)
  deriving DecidableEq, Repr

/-- Whether an instruction acts at the sequencer or at a die (R324). -/
inductive Side where
  | seq | die
  deriving DecidableEq, Repr

/-- The bundle in progress: context, die, slot, side, the register snapshots that its slots read (R70), the packet at a die,
the next PC, and what its slots ask of the rest of the bundle. The machine's own bookkeeping (log 12). -/
structure Cur where
  ctx : Nat
  die : Nat
  slot : Nat
  side : Side
  snap : Option Scal
  slm0 : Option (Tbl Byte)
  /-- the outstanding accesses of the sequencer before the bundle (R72) -/
  port0 : Option (List SAcc)
  /-- VCTL.RM before the bundle (R46, R70) -/
  rm0 : Option (BitVec 2)
  pkt : Option Packet
  src : Option DieRegs
  /-- tokens and tiles of the die before the bundle (R70) -/
  toks0 : Option (List Bool)
  tiles0 : Option (Tbl Tile)
  npc : VA
  taken : Bool
  exiting : Bool
  berth : Nat
  queue : Nat
  /-- lane writes of the slots of the bundle at the die, by slot (R71) -/
  claimed : List (Nat × List LaneW)
  /-- slots of the bundle at the die that have faulted (R352) -/
  failed : List Nat
  /-- the cause that stopped the bundle's slot, and whether the slot waits instead of acting -/
  trap : Option Trap
  stalled : Bool
  /-- the dies that issue in the lockstep cc of the bundle's PERM (R409) -/
  perm : Option (List Nat)
  deriving DecidableEq, Repr

def Cur.reset : Cur :=
  { ctx := 0, die := 0, slot := 0, side := .seq, snap := none, slm0 := none, port0 := none, rm0 := none, pkt := none, src := none, toks0 := none, tiles0 := none, npc := 0,
    taken := false, exiting := false, berth := 0, queue := 0, claimed := [], failed := [], trap := none, stalled := false, perm := none }

/-- Boot states (R441). -/
inductive Boot where
  | reset | rom | verify | booted | failed
  deriving DecidableEq, Repr

/-- An error bank (R390 to R392). -/
structure ErrBank where
  valid : Bool := false
  uc : Bool := false
  ovf : Bool := false
  mc : Bool := false
  kind : BitVec 4 := 0
  count : BitVec 16 := 0
  part : BitVec 7 := 0
  partv : Bool := false
  w1 : W64 := 0
  w2 : W64 := 0
  w3 : W64 := 0
  deriving DecidableEq, Repr

/-- A group of members (MID, PART) by rank, and the issue count of each member of this module (R418, R419). -/
structure Group where
  job : Nat
  gid : Nat
  members : List (Nat × Nat)
  counts : Tbl Nat
  deriving DecidableEq, Repr

/-- The states of an accession (R429). -/
inductive AccSt where
  | unassigned | granted | live | cancelled | retired
  deriving DecidableEq, Repr

/-- An accession as this module knows it: key, number, state, whether a retired one was cancelled, the members of this module
that have requested, started and completed it, the ranks on other modules that have, whether the grant has reached the module, and whether the
decision waits for the backup (R427 to R431). -/
structure Accn where
  job : Nat
  gid : Nat
  seq : Nat
  num : BitVec 32
  st : AccSt
  wasCancelled : Bool
  requested : List Nat
  started : List Nat
  completed : List Nat
  elsewhere : List Nat
  arrived : Bool
  mirrored : Bool
  mismatch : Bool
  fault : Bool
  /-- source bytes of other modules' members by rank, as they arrive -/
  srcs : List (Nat × List Byte)
  deriving DecidableEq, Repr

/-- A module's part in the Registrar: the module-local NEXT, the primary's NEXT where this module is the primary, the known
accessions, the requests that wait for a number in order of arrival, the epoch, the designated backup, and decisions not yet acknowledged
(R427, R431). -/
structure Registrar where
  localNext : BitVec 32
  next : BitVec 32
  primary : Bool
  accs : List Accn
  asks : List (Nat × Nat × Nat)
  epoch : BitVec 16
  backup : Option Nat
  /-- decisions mirrored and not acknowledged, oldest first, by key -/
  unacked : List (Nat × Nat × Nat)
  deriving DecidableEq, Repr

def Registrar.reset : Registrar :=
  { localNext := 0, next := 0, primary := false, accs := [], asks := [], epoch := 0, backup := none, unacked := [] }

/-- The state of the module. -/
structure State where
  agenda : List Act
  stepNo : Nat
  cur : Cur
  ctxs : Tbl Ctx
  dies : Tbl Die
  parts : Tbl Part
  jobs : Tbl Job
  /-- bytes of the 52-bit physical space; an unlisted byte reads as 0 (log 1) -/
  mem : List Host.Cell
  /-- poisoned 64-byte lines, by line number (R375) -/
  poison : List Nat
  /-- partition mode in force (R445) -/
  unprot : Bool
  boot : Boot
  fail : BitVec 8
  phalt : Bool
  nobackup : Bool
  collstop : Bool
  hot : Bool
  trip : Bool
  mid : BitVec 8
  clkctl : BitVec 2
  clkNext : Option (BitVec 2)
  qtbase : W64
  jobsel : BitVec 16
  partsel : BitVec 7
  erbsel : BitVec 10
  svcsel : W64
  /-- SVCCMD in progress: OP and context (R367) -/
  cmdBusy : Option (Nat × Nat)
  xinvBusy : Option W64
  errs : Tbl ErrBank
  /-- C_p of the memory ports, and those whose link went down (R440) -/
  caps : List Nat
  portsDown : List Nat
  linksDown : List Nat
  hostDown : Bool
  /-- stores sent to another module and not acknowledged: port, destination, count (R270) -/
  unacked : List (Nat × Nat × Nat)
  purserRoot : W64
  /-- hashes of the image and the configuration block that booted (R443) -/
  imgHash : BitVec 512
  cfgHash : BitVec 512
  -- the Landing
  berths : Tbl Berth
  waitQ : List WaitQ
  rr : List Nat
  bells : Nat
  tasks : Tbl Task
  /-- the next number of a task or a phase; 0 is none (R286) -/
  nextTask : Nat
  graphs : Tbl Graph
  resvns : Tbl Resvn
  phases : Tbl Phase
  bollards : Tbl Bollard
  regr : Registrar
  groups : List Group
  /-- outputs: raises of MSI-X vector 128, for changes of MSTATUS (R439) -/
  statIrqs : Nat
  /-- attestation reports sent to the host (R443) -/
  reports : List (List Byte)
  deriving DecidableEq, Repr

/-- The reasons a step stops with a fault. No step of this model does: every stop of the spec is a state of the machine (a
frozen context, a halted purser pair, an ignored event), so the type has one constructor that nothing raises. -/
inductive Fault where
  /-- Raised by no meaning; safe. -/
  | unused
  deriving DecidableEq, Repr

/-- The reasons a step refuses. -/
inductive Refusal where
  /-- An instruction without a meaning; raised by exec alone; safe. -/
  | notModelled (mnemonic : String)
  deriving DecidableEq, Repr

/-- The module right after reset: nothing listed, every context idle, BOOT RESET (R7, R8, R124, R441). -/
def State.reset : State :=
  { agenda := [], stepNo := 0, cur := Cur.reset, ctxs := [], dies := [], parts := [], jobs := [], mem := [], poison := [],
    unprot := false, boot := .reset, fail := 0, phalt := false, nobackup := false, collstop := false, hot := false,
    trip := false, mid := 0, clkctl := 0, clkNext := none, qtbase := 0, jobsel := 0, partsel := 0, erbsel := 0, svcsel := 0,
    cmdBusy := none, xinvBusy := none, errs := [], caps := List.replicate 8 0, portsDown := [], linksDown := [],
    hostDown := false, unacked := [], purserRoot := 0, imgHash := 0, cfgHash := 0, berths := [], waitQ := [], rr := List.replicate 4 0, bells := 0,
    tasks := [], nextTask := 1, graphs := [], resvns := [], phases := [], bollards := [], regr := Registrar.reset, groups := [],
    statIrqs := 0, reports := [] }

end Sys2Proof.Machine
end

