-- ==== Sys2Proof/Machine/Ops.lean ====
section
/-! DEFINITION. The named operations over the state: contexts, dies, scalar registers and SLM (R7 to R14, R96), physical
memory and its windows (R194, R195, R251, R375), translation (R361 to R366), counters (R344), error banks (R390, R391), and
taking a trap, a machine check or a discard (R309, R351, R356 to R358, R387, R389). -/

namespace Sys2Proof.Machine

/-! ### Bit fields -/

/-- Bits hi : lo of a word as a number. -/
def bf {n : Nat} (v : BitVec n) (hi lo : Nat) : Nat := v.toNat / 2 ^ lo % 2 ^ (hi + 1 - lo)

/-- A number placed at bit lo of a field of w bits. -/
def at' (lo w x : Nat) : Nat := x % 2 ^ w * 2 ^ lo

/-- Sign extension of the low n bits of a number, as an integer. -/
def sx (n x : Nat) : Int := if x % 2 ^ n < 2 ^ (n - 1) then ((x % 2 ^ n : Nat) : Int) else ((x % 2 ^ n : Nat) : Int) - 2 ^ n

/-- Numbers below n, rising. -/
def upto (n : Nat) : List Nat := List.range n

/-- The positions of the one bits among the low n bits of a word. -/
def bitsOf {w : Nat} (v : BitVec w) : List Nat := (upto w).filter fun i => v.getLsbD i

/-! ### The launch record (R13) -/

def lLaunchId (r : BitVec 512) : W64 := BitVec.ofNat 64 (bf r 511 448)
def lEntry (r : BitVec 512) : VA := BitVec.ofNat 56 (bf r 447 392)
def lDieMask (r : BitVec 512) : W64 := BitVec.ofNat 64 (bf r 383 320)
def lKhdr (r : BitVec 512) : Nat := bf r 319 264
def lBerth (r : BitVec 512) : Nat := bf r 255 244
def lPart (r : BitVec 512) : Nat := bf r 243 237
def lGangBase (r : BitVec 512) : Nat := bf r 236 230
def lDCount (r : BitVec 512) : Nat := bf r 229 223
def lQCount (r : BitVec 512) : Nat := bf r 222 220
def lQMask (r : BitVec 512) : BitVec 4 := BitVec.ofNat 4 (bf r 219 216)
def lGMode (r : BitVec 512) : Nat := bf r 215 214
def lStream (r : BitVec 512) : Nat := bf r 213 208
def lHalf (r : BitVec 512) : Bool := r.getLsbD 207
def lVwLoad (r : BitVec 512) : BitVec 8 := BitVec.ofNat 8 (bf r 206 199)
def lJob (r : BitVec 512) : BitVec 16 := BitVec.ofNat 16 (bf r 191 176)
def lClass (r : BitVec 512) : Nat := bf r 175 174

/-! ### Contexts, dies, partitions, jobs -/

/-- The purser pair's context (R6; log 9). -/
def purser : Nat := 128

/-- Contexts and partitions of the mode in force (R6, R356). -/
def State.nparts (s : State) : Nat := if s.unprot then 128 else 64

/-- Lanes of a partition of the mode in force (R122, R197). -/
def State.nlanes (s : State) : Nat := if s.unprot then 2048 else 4096

def State.ctx (s : State) (c : Nat) : Ctx := Tbl.get Ctx.reset s.ctxs c
def State.setCtx (s : State) (c : Nat) (x : Ctx) : State := { s with ctxs := s.ctxs.put c x }
def State.updCtx (s : State) (c : Nat) (f : Ctx → Ctx) : State := s.setCtx c (f (s.ctx c))

/-- A die as the partition of this number sees it. -/
def State.die (s : State) (d : Nat) : Die := Tbl.get (Die.reset s.nlanes) s.dies d
def State.setDie (s : State) (d : Nat) (x : Die) : State := { s with dies := s.dies.put d x }
def State.updDie (s : State) (d : Nat) (f : Die → Die) : State := s.setDie d (f (s.die d))

def State.part (s : State) (p : Nat) : Part := Tbl.get Part.reset s.parts p
def State.updPart (s : State) (p : Nat) (f : Part → Part) : State := { s with parts := s.parts.put p (f (s.part p)) }

def State.job (s : State) (j : BitVec 16) : Job := Tbl.get Job.reset s.jobs j.toNat
def State.updJob (s : State) (j : BitVec 16) (f : Job → Job) : State :=
  { s with jobs := s.jobs.put j.toNat (f (s.job j)) }

/-- The context of the bundle in progress. -/
def State.cx (s : State) : Ctx := s.ctx s.cur.ctx
def State.updCx (s : State) (f : Ctx → Ctx) : State := s.updCtx s.cur.ctx f
/-- The die of the bundle in progress. -/
def State.dx (s : State) : Die := s.die s.cur.die
def State.updDx (s : State) (f : Die → Die) : State := s.updDie s.cur.die f

/-- The number n of the compute die CDn that a partition's die stands on (R123). -/
def State.cdn (s : State) (d : Nat) : Nat := if s.unprot then d / 2 else d

/-- The partition of die CDn among those of a gang: halves of a die may be unlike in one gang (R123, R293, R398). -/
def State.keyIn (s : State) (l : List Nat) (n : Nat) : Option Nat := l.find? fun p => s.cdn p == n

/-- The dies that tree packets reach, for a launch record and the partitions of a gang (R398). -/
def issueSetOf (r : BitVec 512) (gang : List Nat) : List Nat := if lGMode r == 1 then gang else [lPart r]

/-- A context's issue set (R398); the purser pair has none. -/
def State.issueSet (s : State) (c : Nat) : List Nat := if c == purser then [] else issueSetOf (s.ctx c).lrec (s.ctx c).gparts

/-- Every die of a context's gang (R13, R398). -/
def State.gangDies (s : State) (c : Nat) : List Nat :=
  let x := s.ctx c
  if lGMode x.lrec == 0 then [lPart x.lrec] else x.gparts

/-- A context that runs, has run to its end without draining, or is saved or frozen. -/
def Ctx.busy (x : Ctx) : Bool := x.lst != .idle

/-- The context that drives a die. -/
def State.driver (s : State) (d : Nat) : Option Nat :=
  ((s.ctxs.map (·.1)).filter fun c => c != purser && (s.ctx c).busy && (s.issueSet c).contains d).head?

/-- The DMASK bit of a die (R144). -/
def State.maskBit (s : State) (m : W64) (d : Nat) : Bool := m.getLsbD (s.cdn d)

/-- The dies of a context enabled by the sequencer's copy of DMASK (R406, R407). -/
def State.enabledDies (s : State) (c : Nat) : List Nat := (s.issueSet c).filter (s.maskBit (s.ctx c).dmasks)

/-- Whether an unclaimed speculative run holds the context (R304, R316). -/
def Ctx.isSpec (x : Ctx) : Bool := x.spec.isSome

/-! ### Scalar registers and predicates (R7, R70, R96) -/

/-- x0 reads as zero (R96). -/
def Scal.getX (r : Scal) (n : Reg) : W64 := if n = 0 then 0 else r.x[n.toNat]'n.isLt
/-- A write to x0 is discarded (R96). -/
def Scal.setX (r : Scal) (n : Reg) (v : W64) : Scal := if n = 0 then r else { r with x := r.x.set n.toNat v n.isLt }
/-- q0 reads as true (R7). -/
def Scal.getQ (r : Scal) (n : QIdx) : Bool := n == 0 || r.q[n.toNat]'n.isLt
/-- A write to q0 is discarded (R7). -/
def Scal.setQ (r : Scal) (n : QIdx) (v : Bool) : Scal := if n = 0 then r else { r with q := r.q.set n.toNat v n.isLt }

/-- The scalar state that a slot of the bundle in progress reads: the values before the bundle (R70). -/
def State.src (s : State) : Scal := s.cur.snap.getD s.cx.sc

/-- A signal operation has not been performed (R330). -/
def Gather.isSig (g : Gather) : Bool :=
  match g.kind with
  | .sigadd _ _ _ _ _ => true
  | .sigst _ _ _ _ => true
  | _ => false

/-- Accesses of the sequencer's earlier bundles, signal operations among them, are outstanding: what a Y slot waits for (R256). -/
def State.portBusy (s : State) : Bool := !(s.cur.port0.getD s.cx.port).isEmpty || s.cx.gathers.any Gather.isSig

/-- The value a slot of the bundle in progress reads from a register. -/
def State.x (s : State) (n : Reg) : W64 := s.src.getX n
/-- The value a slot of the bundle in progress reads from a predicate. -/
def State.q (s : State) (n : QIdx) : Bool := s.src.getQ n
/-- Writes a register of the context of the bundle in progress. -/
def State.setX (s : State) (n : Reg) (v : W64) : State := s.updCx fun x => { x with sc := x.sc.setX n v }
/-- Writes a predicate of the context of the bundle in progress. -/
def State.setQ (s : State) (n : QIdx) (v : Bool) : State := s.updCx fun x => { x with sc := x.sc.setQ n v }

/-- A checkpoint takes a result that was still to come when it was taken (R383). -/
def SeqCkpt.deliver (k : SeqCkpt) (n : Reg) (b : BitVec 48) (v : W64) : SeqCkpt :=
  if k.pend.contains (n, b) then { k with sc := k.sc.setX n v, pend := k.pend.erase (n, b) } else k

/-- The scalar words of a trapped bundle are the values that its slots would read: a result it was still waiting for takes its place among
them as it arrives (R78, R356; log 22). -/
def Fcr.deliver (r : Fcr) (n : Reg) (v : W64) : Fcr := { r with scw := (r.scw.zip r.scr).map fun e => if e.2 == n then v else e.1 }

/-- A context takes a result: its register is written while it still waits for that bundle's result, and not once a later bundle has
written it (R19, R115). -/
def Ctx.deliver (x : Ctx) (n : Reg) (b : BitVec 48) (v : W64) : Ctx :=
  { x with
    sc := if x.pendX.contains (n, b) then x.sc.setX n v else x.sc
    pendX := x.pendX.erase (n, b)
    bad := if x.pendX.contains (n, b) then x.bad.filter (· != .x n) else x.bad
    fcr := if x.pendX.contains (n, b) && x.frozen && !x.fcr.scr.isEmpty then x.fcr.deliver n v else x.fcr
    seg := { x.seg with ckpt := x.seg.ckpt.map fun k => k.deliver n b v, next := x.seg.next.map fun k => k.deliver n b v } }

/-- Delivers the result that the bundle of BSN b produces for register n of a context (R19, R326). -/
def State.deliverX (s : State) (c : Nat) (n : Reg) (b : BitVec 48) (v : W64) : State := s.updCtx c fun x => x.deliver n b v

/-- The bundle before the next one of a context: the one whose wait keeps it from issuing. -/
def Ctx.lastBsn (x : Ctx) : BitVec 48 := x.bsn - 1

/-- A register becomes pending until the result of the bundle in progress arrives (R19); x0 never does. -/
def State.pendX (s : State) (n : Reg) : State :=
  if n = 0 then s else s.updCx fun x => { x with pendX := (n, x.bsn) :: x.pendX }

/-- A bundle writes registers: results of earlier bundles that they still wait for are no longer awaited (R19, R115). -/
def Ctx.supersede (x : Ctx) (l : List Reg) : Ctx := { x with pendX := x.pendX.filter fun e => !l.contains e.1 }

/-! ### SLM (R9 to R14) -/

/-- Bytes of SLM of a context (R9, R6). -/
def State.slmSize (s : State) : Nat := if s.unprot && s.cur.ctx != purser then 0x20000 else 0x40000

/-- A byte of SLM: the launch record, or free SLM, which reads as zero until written (R9, R10). -/
def Ctx.slmByte (x : Ctx) (a : Nat) : Byte :=
  if a < 64 then BitVec.ofNat 8 (bf x.lrec (8 * a + 7) (8 * a)) else x.slm.get 0 a

/-- n bytes of SLM from address a as a number. -/
def Ctx.slmRd (x : Ctx) (a : Nat) : Nat → Nat
  | 0 => 0
  | n + 1 => (x.slmByte a).toNat + 256 * x.slmRd (a + 1) n

/-- Stores the n low bytes of a number to SLM. -/
def slmWr (t : Tbl Byte) (a : Nat) : Nat → Nat → Tbl Byte
  | 0, _ => t
  | n + 1, v => slmWr (Tbl.set 0 t a (BitVec.ofNat 8 v)) (a + 1) n (v / 256)

/-! ### Physical memory (R194, R195, R251) -/

/-- A byte of the physical space. -/
def State.memByte (s : State) (a : Nat) : Byte := Tbl.get 0 s.mem a

/-- Writes a byte of the physical space in canonical form. -/
def State.setByte (s : State) (a : Nat) (v : Byte) : State := { s with mem := Tbl.set 0 s.mem a v }

/-- First address of the doorbell window (R195). -/
def bellBase : Nat := 0x10000000000
/-- First address of the second tier (R195). -/
def tier2Base : Nat := 0x1000000000000
/-- The span of one memory port (R195). -/
def portSpan : Nat := 0x18000000000
/-- First address of the host window (R195). -/
def hostBase : Nat := 0x8000000000000

def isBell (a : Nat) : Bool := bellBase ≤ a && a < bellBase + 0x200000
def isHost (a : Nat) : Bool := hostBase ≤ a && a < 2 ^ 52
/-- The memory port of an address (R195, R440). -/
def portOf (a : Nat) : Option Nat := if tier2Base ≤ a && a < tier2Base + 8 * portSpan then some ((a - tier2Base) / portSpan) else none

/-- An address in a reserved window (R195). -/
def State.reserved (s : State) (a : Nat) : Bool :=
  if a < bellBase then false
  else if isBell a || isHost a then false
  else match portOf a with
    | some p => s.caps.getD p 0 ≤ (a - tier2Base) % portSpan
    | none => true

/-- A load from the doorbell window returns zero (R195). -/
def State.homeByte (s : State) (a : Nat) : Byte := if isBell a then 0 else s.memByte a

/-- n bytes at home as a number (R2). -/
def State.homeRd (s : State) (a : Nat) : Nat → Nat
  | 0 => 0
  | n + 1 => (s.homeByte a).toNat + 256 * s.homeRd (a + 1) n

/-- Whether an access to the byte's line completes as poison: poisoned memory, or a port or host link that is down (R375, R440). -/
def State.poisonAt (s : State) (a : Nat) : Bool :=
  s.poison.contains (a / 64) ||
    (match portOf a with
     | some p => s.portsDown.contains p
     | none => false)

/-- Whether an access to n bytes meets poison. -/
def State.poisonIn (s : State) (a n : Nat) : Bool := s.poisonAt a || s.poisonAt (a + (n - 1))

/-- The doorbell window and a port whose link is down take no byte (R195, R440). -/
def State.noStore (s : State) (a : Nat) : Bool :=
  isBell a ||
    (match portOf a with
     | some p => s.portsDown.contains p
     | none => false)

/-- A byte stored to plain memory, where it is taken. -/
def State.putByte (s : State) (a : Nat) (v : Byte) : State := if s.noStore a then s else s.setByte a v

/-- Writes n bytes of a number to plain memory, lowest first (R2). -/
def State.memWr (s : State) (a : Nat) : Nat → Nat → State
  | 0, _ => s
  | n + 1, v => (s.putByte a (BitVec.ofNat 8 v)).memWr (a + 1) n (v / 256)

/-- An access of the host has effect: a secure-world one without IDE has none (R439). -/
def hostActs (via : HostAcc) : Bool := via != .secBare

/-- Asks for a step of the machine before anything else is scheduled (log 2). -/
def State.post (s : State) (i : Instr) : State := { s with agenda := s.agenda ++ [.ev i] }

/-- A store performed at home by anything but device code; the doorbell window ignores it (R195). -/
def State.homeWr (s : State) (a n v : Nat) : State := s.memWr a n v

/-- The job of a queue, from its descriptor (R272). -/
def State.queueJob (s : State) (q : Nat) : BitVec 16 := BitVec.ofNat 16 (s.homeRd (s.qtbase.toNat + 64 * q + 34) 2)

/-- A store performed at home for device code of a job. An 8-byte store to the doorbell window is a doorbell for queue offset / 8,
accepted only for a queue of the job; any other store there is ignored (R195, R273). -/
def State.devWr (s : State) (job : BitVec 16) (a n v : Nat) : State :=
  if isBell a then
    if n == 8 && s.queueJob ((a - bellBase) / 8) == job then s.post (.doorbell ⟨.plain, (a - bellBase) / 8⟩ (w64 v)) else s
  else s.memWr a n v

/-- A poisoned line is marked so that a later read meets it (R381). -/
def State.addPoison (s : State) (a : Nat) : State :=
  if s.poison.contains (a / 64) then s else { s with poison := (a / 64) :: s.poison }

/-! ### Translation (R361 to R366) -/

/-- The page size of a leaf at a level, as a power of two (R361). -/
def pageBits (lvl : Nat) : Nat := if lvl == 1 then 30 else if lvl == 2 then 21 else 16

/-- The index of a virtual address at a level (R361). -/
def ptIndex (va lvl : Nat) : Nat :=
  if lvl == 0 then va / 2 ^ 43 % 2 ^ 13
  else if lvl == 1 then va / 2 ^ 30 % 2 ^ 13
  else if lvl == 2 then va / 2 ^ 21 % 2 ^ 9
  else va / 2 ^ 16 % 2 ^ 5

/-- The alignment of the table that an entry of a level points to (R361). -/
def tableAlign (lvl : Nat) : Nat := if lvl == 0 then 0x10000 else 0x1000

/-- A walk code: level and condition (R363). -/
def walkCode (lvl c : Nat) : BitVec 8 := BitVec.ofNat 8 (lvl * 16 + c)

/-- A walk from the table at t on, with `fuel` levels left (R361, R362). -/
def State.walk (s : State) (job : BitVec 16) (va : Nat) (fuel lvl t : Nat) : Except (BitVec 8) TlbE :=
  match fuel with
  | 0 => .error (walkCode lvl 4)
  | f + 1 =>
    let e := s.homeRd (t + 8 * ptIndex va lvl) 8
    let b (i : Nat) : Bool := e.testBit i
    let pa := e / 2 ^ 12 % 2 ^ 40 * 2 ^ 12
    if !b 0 then .error (walkCode lvl 1)
    else if e / 2 ^ 52 != 0 || e / 2 ^ 6 % 2 ^ 6 != 0 || (!b 1 && e / 4 % 16 != 0) then .error (walkCode lvl 4)
    else if b 1 then
      if lvl == 0 || pa % 2 ^ pageBits lvl != 0 then .error (walkCode lvl 4)
      else .ok { job := job, lvl := lvl, vpage := va / 2 ^ pageBits lvl, ppage := pa / 2 ^ pageBits lvl, sec := b 5,
                 x := b 4, w := b 3, rd := b 2 }
    else if lvl == 3 || s.reserved pa || pa % tableAlign lvl != 0 then .error (walkCode lvl 4)
    else s.walk job va f (lvl + 1) pa

/-- The physical address a leaf gives. -/
def TlbE.pa (e : TlbE) (va : Nat) : Nat := e.ppage * 2 ^ pageBits e.lvl + va % 2 ^ pageBits e.lvl

/-- A cached leaf serves an address of its job (R365). -/
def TlbE.hits (e : TlbE) (job : BitVec 16) (va : Nat) : Bool := e.job == job && e.vpage == va / 2 ^ pageBits e.lvl

/-- The permission bits an access needs (R362). -/
def TlbE.allows (e : TlbE) : AccK → Bool
  | .load => e.rd
  | .store => e.w
  | .atomic => e.rd && e.w
  | .fetch => e.x

/-- The checks of a leaf, in the order WORLD, PERM, WINDOW (R363). `bell`: the access is no doorbell store, so the doorbell
window is a reserved window to it (R195). -/
def State.leafCheck (s : State) (e : TlbE) (secure : Bool) (k : AccK) (bell : Bool) (va : Nat) : Except (BitVec 8) Nat :=
  if e.sec && !secure then .error (walkCode 0 3)
  else if !e.allows k then .error (walkCode e.lvl 2)
  else if s.reserved (e.pa va) || (bell && isBell (e.pa va)) then .error (walkCode 0 5)
  else .ok (e.pa va)

/-- Who translates: the job tag, the root of its tables and its world (R361, R444). -/
structure Xlat where
  job : BitVec 16
  root : Nat
  secure : Bool
  deriving DecidableEq, Repr

/-- The translation of a job's partitions: non-secure (R444). -/
def State.jobXlat (s : State) (j : BitVec 16) : Xlat := ⟨j, (s.job j).xroot.toNat, false⟩

/-- The translation of a context; the purser pair is of the secure world (R444; log 9). -/
def State.ctxXlat (s : State) (c : Nat) : Xlat :=
  if c == purser then ⟨0, s.purserRoot.toNat, true⟩ else s.jobXlat (lJob (s.ctx c).lrec)

/-- The leaf for an address: a cached one, else a walk's (R364, R365). -/
def State.leaf (s : State) (tlb : List TlbE) (x : Xlat) (va : Nat) : Except (BitVec 8) TlbE :=
  match tlb.find? (·.hits x.job va) with
  | some e => .ok e
  | none => s.walk x.job va 4 0 x.root

/-- A translation: the physical address and the leaf to cache, or the walk code. -/
def State.translate (s : State) (tlb : List TlbE) (x : Xlat) (k : AccK) (bell : Bool) (va : Nat) :
    Except (BitVec 8) (Nat × TlbE) :=
  match s.leaf tlb x va with
  | .error w => .error w
  | .ok e =>
    match s.leafCheck e x.secure k bell va with
    | .error w => .error w
    | .ok pa => .ok (pa, e)

/-- XINV: ALL, the address and the job (R366). -/
def xinvHits (w : W64) (job : BitVec 16) (lvl vpage : Nat) : Bool :=
  job == BitVec.ofNat 16 (bf w 15 0) && (w.getLsbD 63 || bf w 55 16 * 65536 / 2 ^ pageBits lvl == vpage)

/-- An XINV drops a cached leaf. -/
def TlbE.dropped (e : TlbE) (w : W64) : Bool := xinvHits w e.job e.lvl e.vpage

/-- A cache takes a leaf: once, and none that an invalidation in progress names (R365, R366). -/
def tlbAdd (busy : Option W64) (t : List TlbE) (e : TlbE) : List TlbE := if t.contains e || busy.any e.dropped then t else e :: t

/-- Translation for an agent that keeps no cache, such as the Landing. The doorbell window is reserved to an atomic alone (R195). -/
def State.translateCold (s : State) (x : Xlat) (k : AccK) (va : Nat) : Except (BitVec 8) Nat :=
  (s.translate [] x k (k == .atomic) va).map (·.1)

/-! ### Counters (R320, R344) -/

/-- Adds to counter i of a partition. -/
def State.addCtr (s : State) (p i n : Nat) : State :=
  if p < 128 then s.updPart p fun t => { t with ctrs := t.ctrs.set i (t.ctrs.getD i 0 + w64 n) } else s

/-- Adds n events to the counters of a list that select an event. -/
def bump (ev : BitVec 8) (n : Nat) : List (BitVec 8) → List W64 → List W64
  | e :: es, c :: cs => (if e == ev then c + w64 n else c) :: bump ev n es cs
  | _, cs => cs

/-- Counts n events of a kind for a partition (R344). -/
def State.count (s : State) (p : Nat) (ev : BitVec 8) (n : Nat) : State :=
  if p < 128 && n != 0 then s.updPart p fun t => { t with ctrs := bump ev n t.evsel t.ctrs } else s

/-! ### Error banks (R390, R391) -/

/-- Whether the table of R390 lists a bank. -/
def bankListed (b : Nat) : Bool := b ≤ 66 || (128 ≤ b && b < 681)

/-- An error arriving at a bank: uncorrectable, machine check, kind, context, words 1 to 3. -/
structure ErrIn where
  uc : Bool
  mc : Bool := false
  kind : BitVec 4
  part : Option Nat := none
  w1 : W64 := 0
  w2 : W64 := 0
  w3 : W64 := 0
  deriving DecidableEq, Repr

/-- The bank with the error's record and the count kept (R391). -/
def ErrBank.take (b : ErrBank) (e : ErrIn) : ErrBank :=
  { b with valid := true, uc := e.uc, mc := e.mc, kind := e.kind, part := BitVec.ofNat 7 (e.part.getD 0),
           partv := e.part.isSome, w1 := e.w1, w2 := e.w2, w3 := e.w3 }

/-- An error arrives at a bank (R391). -/
def ErrBank.arrive (b : ErrBank) (e : ErrIn) : ErrBank :=
  let b1 :=
    if !b.valid then b.take e
    else if !b.uc then (if e.uc then b.take e else { b with ovf := true })
    else if e.uc then { b with ovf := true } else b
  { b1 with count := if b1.count == 0xFFFF then 0xFFFF else b1.count + 1 }

/-- Errors that arrive at one bank together: the uncorrectable ones first, then by rising address, then by KIND (R391). -/
def ErrIn.before (a b : ErrIn) : Bool :=
  if a.uc != b.uc then a.uc else if a.w1 != b.w1 then decide (a.w1 < b.w1) else decide (a.kind ≤ b.kind)

def insErr (e : Nat × ErrIn) : List (Nat × ErrIn) → List (Nat × ErrIn)
  | [] => [e]
  | k :: r => if e.2.before k.2 then e :: k :: r else k :: insErr e r

def State.bank (s : State) (i : Nat) : ErrBank := Tbl.get {} s.errs i

/-- Records an error in the bank of a unit. -/
def State.logErr (s : State) (i : Nat) (e : ErrIn) : State := { s with errs := s.errs.put i ((s.bank i).arrive e) }

/-- Records errors that arrive in the same cc (R391). -/
def State.logErrs (s : State) (l : List (Nat × ErrIn)) : State := (l.foldr insErr []).foldl (fun t e => t.logErr e.1 e.2) s

/-- The bank of unit k of a partition's die (R390); quadrants of a half-die keep their number on CDn. -/
def State.dieBank (s : State) (d k : Nat) : Nat := 128 + 8 * s.cdn d + (if s.unprot && k < 4 then 2 * (d % 2) + k else k)

/-- The bank of a unit of a die: its quadrant's for a predicate, the first quadrant's for a view, a dc register or a token, and the copy
engine's for a tile entry or a descriptor slot (R390; log 19). -/
def State.unitBank (s : State) (d : Nat) : DieUnit → Nat
  | .pred lane _ => s.dieBank d (lane / 1024)
  | .tile _ => s.dieBank d 7
  | .desc _ => s.dieBank d 7
  | _ => s.dieBank d 0

/-- The bank of a context's sequencer pair (R390). -/
def State.seqBank (s : State) (c : Nat) : Nat := if c == purser then 64 else if s.unprot then c / 2 else c

/-- The bank of the memory that holds a physical address (R390); HBM blocks of 4 KiB go round the stacks (R195). -/
def memBank (a : Nat) : Nat :=
  match portOf a with
  | some p => 672 + p
  | none => if isHost a then 680 else 640 + a / 4096 % 16

/-! ### Stopping: traps, machine checks, discards -/

/-- A speculative run is to be discarded; counter `ctr` of its partition counts it (R309, R317, R320). -/
def State.discard (s : State) (c ctr : Nat) : State :=
  match (s.ctx c).spec with
  | some r =>
    if r.st == .discarding then s
    else (s.updCtx c fun x => { x with spec := some { r with st := .discarding }, stopping := true }).addCtr c ctr 1
  | none => s

/-- A speculative run is STALLED once an operation that waits for its claim has reached issue (R309, R319). -/
def State.noteStall (s : State) (c : Nat) : State :=
  s.updCtx c fun x => { x with spec := x.spec.map fun r => if r.st == .running then { r with st := .stalled } else r }

/-- Bits 7:1 of PRESENT hold the die slots; the field of a slot of a packet. -/
def Packet.field (p : Packet) (i : Nat) : SlotBits :=
  match p.slots.find? (·.1 == i) with
  | some (_, ins) => encode ins
  | none => 0

/-- The field of the current slot of the bundle in progress. -/
def State.curField (s : State) : SlotBits := (s.cur.pkt.map (·.field s.cur.slot)).getD 0

/-- The token that a slot produces (R177). -/
def toutOf : Instr → Option Tok
  | .mlds a => some a.tout
  | .mmul a => some a.tout
  | .ccopyIn a => some a.tout
  | .ccopyOut a => some a.tout
  | .cmcast a => some a.tout
  | .cflush t _ _ => some t
  | .permVault a => some a.tout
  | .coll _ t _ _ => some t
  | _ => none

/-- The tokens that the slots of a packet produce. -/
def Packet.touts (p : Packet) : List Tok := p.slots.filterMap fun e => toutOf e.2

/-- Taking a sequencer-detected trap on a context (R28, R351, R356 to R358): the context freezes at the bundle, whose BSN is
both f and g, the frozen-context record takes the cause, and the trap message is posted. The tokens of the bundle's slots are noted for a
skip (R338). PC, BSN and every other register keep
their values. On the purser pair it halts SP64 (R389); a speculative run is discarded and posts nothing (R309). -/
def State.takeTrapOn (s : State) (c : Nat) (t : Trap) : State :=
  let x := s.ctx c
  let s1 := { s with cur := { s.cur with trap := some t } }
  if x.isSpec then s1.discard c 62
  else
    let r : Fcr :=
      { slot := t.slot, detail := t.detail, ucode := t.ucode, cause := t.cause, f := x.bsn, addrF := x.pc, g := x.bsn,
        data := t.data, field := s.curField, scw := (s.cur.pkt.map (·.words)).getD [], scr := (s.cur.pkt.map (·.wregs)).getD [] }
    let s2 := s1.updCtx c fun x =>
      { x with frozen := true, trappend := c != purser, fcr := r, recFault := none, trapToks := (s.cur.pkt.map Packet.touts).getD [] }
    if c == purser then { s2 with phalt := true } else s2

/-- Taking a trap on the context of the bundle in progress. -/
def State.takeTrap (s : State) (t : Trap) : State := s.takeTrapOn s.cur.ctx { t with slot := s.cur.slot }

/-- The slot waits: the bundle does not issue in this step (R15, R140). -/
def State.stall (s : State) : State := { s with cur := { s.cur with stalled := true } }

/-- A machine check of a context (R387, R389): it halts frozen with the code and the index of the error bank. -/
def State.machineCheck (s : State) (c : Nat) (code : BitVec 16) (bank : Nat) : State :=
  let s1 := s.updCtx c fun x =>
    { x with frozen := true, trappend := c != purser, fcr := { cause := code, data := BitVec.ofNat 56 bank }, recFault := none }
  if c == purser then { s1 with phalt := true } else s1

/-- A machine-checked context (R387). -/
def Ctx.mcheck (x : Ctx) : Bool := x.frozen && 0x0201 ≤ x.fcr.cause.toNat && x.fcr.cause.toNat ≤ 0x0207

/-- A context issues bundles (R31): entered or running, and neither frozen, swapped, stopping, stopped nor halted. -/
def State.issues (s : State) (c : Nat) : Bool :=
  let x := s.ctx c
  (x.lst == .entry || x.lst == .running) && !x.frozen && !x.swapped && !x.saved && !x.stopping && !x.killed && !(c == purser && s.phalt)

end Sys2Proof.Machine
end

