-- ==== Sys2Proof/Machine/Flags.lean ====
section
/-! DEFINITION. Every flag computation: condition codes, predicate functions and relations (R104, R107, R109, R276), and the
first-event log that arithmetic leaves on a quadrant (R48, R60, R340). -/

namespace Sys2Proof.Machine

/-- Condition codes of CMP, CMPI and BR (R104). -/
def Cond.holds (c : Cond) (a b : W64) : Bool :=
  match c with
  | .eq => a == b
  | .ne => a != b
  | .lt => a.slt b
  | .ge => !a.slt b
  | .ltn => a.ult b
  | .gen => !a.ult b

/-- Predicate functions (R107). -/
def QFn.app (f : QFn) (a b : Bool) : Bool :=
  match f with
  | .and => a && b
  | .or => a || b
  | .xor => a != b
  | .andn => a && !b
  | .orn => a || !b
  | .xnor => a == b
  | .not => !a

/-- FCMP relations as those of VCMP (R109, R158). -/
def FRel.rel : FRel → VRel
  | .eq => .eq
  | .ne => .ne
  | .lt => .lt
  | .le => .le
  | .un => .un

/-- Conditions of packets and SIGWAIT compare signed 64-bit values (R276, R322). -/
def PCond.holds (c : PCond) (a b : W64) : Bool :=
  match c with
  | .eq => a == b
  | .ne => a != b
  | .lt => a.slt b
  | .ge => !a.slt b
  | .gt => b.slt a
  | .le => !b.slt a

/-- The KIND code of the first of INVALID, DIVZERO, OVERFLOW, UNDERFLOW that was raised (R60). -/
def Ev.kind (e : Ev) : Nat := if e.inv then 0 else if e.dz then 2 else if e.ovf then 1 else 3

/-- The rank of a KIND code in that order (R340). -/
def kindRank (k : Nat) : Nat := if k == 0 then 0 else if k == 2 then 1 else if k == 1 then 2 else 3

/-- Earlier: smaller BSN, then lower slot, then the order of kinds (R60). -/
def FeLog.earlier (a b : FeLog) : Bool :=
  decide (a.bsn < b.bsn) ||
    (a.bsn == b.bsn && (decide (a.slot < b.slot) || (a.slot == b.slot && decide (kindRank a.kind < kindRank b.kind))))

/-- The events of one slot of one bundle arrive at a log (R60). -/
def FeLog.arrive (l : FeLog) (bsn : BitVec 48) (addr : VA) (slot : Nat) (e : Ev) : FeLog :=
  if !e.any then l
  else
    let st : FeLog := { l with sinv := l.sinv || e.inv, sovf := l.sovf || e.ovf, sdz := l.sdz || e.dz, sunf := l.sunf || e.unf }
    let n : FeLog := { st with valid := true, slot := slot, kind := e.kind, bsn := bsn, addr := addr }
    if !l.valid || n.earlier l then n else st

/-- Word 0 of a log (R60). -/
def FeLog.word0 (l : FeLog) : W64 :=
  w64 (at' 63 1 (b2n l.valid) + at' 60 3 l.slot + at' 58 2 l.kind + at' 57 1 (b2n l.sinv) + at' 56 1 (b2n l.sovf)
    + at' 55 1 (b2n l.sdz) + at' 54 1 (b2n l.sunf) + l.bsn.toNat)

/-- Word 1 of a log: the address of the recorded bundle (R60). -/
def FeLog.word1 (l : FeLog) : W64 := l.addr.setWidth 64

/-- The response tree's combination of two logs (R340). -/
def FeLog.merge (a b : FeLog) : FeLog :=
  let r := if !b.valid then a else if !a.valid then b else if b.earlier a then b else a
  { r with sinv := a.sinv || b.sinv, sovf := a.sovf || b.sovf, sdz := a.sdz || b.sdz, sunf := a.sunf || b.sunf }

end Sys2Proof.Machine
end

