-- ==== Sys2Proof/Machine/Operands.lean ====
section
/-! DEFINITION. Every operand form of a die slot (R73 to R76, R122, R123, R128, R129, R131 to R135, R143): renaming by views
and PRB, slices, special operands, widths, lane predicates, and the lane writes that a slot delivers (R136). -/

namespace Sys2Proof.Machine

/-! ### Views and renaming (R131 to R135) -/

def vwKind (v : W64) : Nat := bf v 63 61
def vwBase (v : W64) : Nat := bf v 60 52
def vwP1 (v : W64) : Nat := bf v 51 42
def vwP2 (v : W64) : Nat := bf v 41 33
def vwRrb (v : W64) : Nat := bf v 32 24

/-- The rules a view value must meet (R131, R172). -/
def vwOk (v : W64) : Bool :=
  bf v 23 0 == 0 &&
    (if vwKind v == 0 then bf v 60 0 == 0
     else if vwKind v == 1 then (bf v 51 49 == 1 || bf v 51 49 == 3) && bf v 48 42 == 0 && vwRrb v == 0
     else if vwKind v == 2 then vwP2 v == 0 && vwRrb v == 0
     else if vwKind v == 3 then
       1 ≤ vwP1 v && vwP1 v ≤ 512 && vwP2 v < vwP1 v && vwRrb v < vwP1 v && vwBase v + vwP1 v ≤ 512
     else false)

/-- A ROT view covers a slice name (R133). -/
def vwCovers (n : Nat) (v : W64) : Bool := vwKind v == 3 && vwBase v ≤ n && n < vwBase v + vwP1 v

/-- The physical slice of a name: the lowest-numbered ROT view that covers it renames it (R133). -/
def renSl (views : List W64) (n : Nat) : Nat :=
  match views.find? (vwCovers n) with
  | some v => vwBase v + (n - vwBase v + vwRrb v) % vwP1 v
  | none => n

/-- The physical predicate of a name (R135). -/
def renP (prb : BitVec 3) (i : PIdx) : Nat := if i.toNat < 8 then i.toNat else 8 + (i.toNat - prb.toNat) % 8

/-- RRB and PRB after k rotation steps (R134, R449). -/
def rotView (k : Nat) (v : W64) : W64 :=
  if vwKind v == 3 && vwP1 v != 0 then
    let n := vwP1 v
    let rrb := (vwRrb v + (n - vwP2 v % n) * k) % n
    w64 (v.toNat - vwRrb v * 2 ^ 24 + rrb * 2 ^ 24)
  else v

def DieRegs.rotate (r : DieRegs) (k : Nat) : DieRegs :=
  { r with views := r.views.map (rotView k), prb := r.prb + BitVec.ofNat 3 k }

/-! ### Slices -/

/-- The physical slices of n names from `start` on (R133). -/
def DieRegs.phys (r : DieRegs) (start n : Nat) : List Nat := (upto n).map fun k => renSl r.views (start + k)

def DieRegs.physD (r : DieRegs) (d : Dst) : List Nat := r.phys d.start.toNat d.w.slices

/-- A set of physical slices as a mask. -/
def sliceSet : List Nat → BitVec 512
  | [] => 0
  | p :: ps => sliceSet ps ||| BitVec.ofNat 512 (2 ^ p)

/-- One slice of a lane (R124). -/
def Lane.slice (l : Lane) (p : Nat) : Nat := l.sl.toNat / 2 ^ (4 * p) % 16

/-- The value of a list of slices, the first lowest (R73). -/
def Lane.rd (l : Lane) : List Nat → Nat
  | [] => 0
  | p :: ps => l.slice p + 16 * l.rd ps

/-- The write of a value to a list of slices. -/
def putSlices : List Nat → Nat → LaneW
  | [], _ => {}
  | p :: ps, v =>
    let r := putSlices ps (v / 16)
    let m := BitVec.ofNat 2048 (15 * 2 ^ (4 * p))
    { r with m := r.m ||| m, v := (r.v &&& ~~~m) ||| BitVec.ofNat 2048 (v % 16 * 2 ^ (4 * p)) }

/-- The write of a predicate; a write to p0 is discarded (R124). -/
def putPred (p : Nat) (b : Bool) : LaneW :=
  if p == 0 then {} else { pm := BitVec.ofNat 16 (2 ^ p), pv := BitVec.ofNat 16 (if b then 2 ^ p else 0) }

/-- A lane after a write: only the slices and predicates of the write change (R129). -/
def Lane.apply (l : Lane) (w : LaneW) : Lane :=
  { sl := (l.sl &&& ~~~w.m) ||| (w.v &&& w.m), pr := (l.pr &&& ~~~w.pm) ||| (w.pv &&& w.pm) }

/-- A lane predicate; p0 reads as true (R124). -/
def Lane.pred (l : Lane) (p : Nat) : Bool := p == 0 || l.pr.getLsbD p

/-! ### What a slot at a die reads -/

/-- The registers that the slots of the bundle at a die read: the values before the bundle (R70). -/
def State.dsrc (s : State) : DieRegs := s.cur.src.getD s.dx.regs

/-- The scalar word that a tree packet carries for a register (R78). -/
def wordOf (r : Reg) : List Reg → List W64 → W64
  | k :: ks, w :: ws => if k == r then w else wordOf r ks ws
  | _, _ => 0

def Packet.getX (p : Packet) (r : Reg) : W64 := wordOf r p.wregs p.words

/-- A scalar register as a die slot reads it (R75, R78). -/
def State.px (s : State) (r : Reg) : W64 :=
  match s.cur.pkt with
  | some p => p.getX r
  | none => s.x r

/-- The number of DIEMASK bits below this die's bit (R75). -/
def State.dieIdx (s : State) (d : Nat) : Nat :=
  match s.driver d with
  | some c => ((s.gangDies c).filter fun e => decide (e < d)).length
  | none => 0

/-- The rounding mode of the bundle's sideband (R46, R77). -/
def State.smode (s : State) : RM := RM.ofBits ((s.cur.pkt.map (·.rm)).getD 0)

/-- The raw value of a source operand in the lane at a position: slices, or a special operand (R73, R75). -/
def State.raw (s : State) (o : Opnd) (pos : Nat) (l : Lane) : Nat :=
  match o with
  | .sl d => l.rd (s.dsrc.physD d)
  | .x r => (s.px r).toNat
  | .lane => pos % 1024
  | .row => pos % 1024 / 64
  | .col => pos % 64
  | .quad => pos / 1024
  | .die => s.dieIdx s.cur.die
  | .c n => (s.dx.consts.getD n.toNat 0).toNat

/-- Bits that a source operand brings: a special operand brings its low bits at the width of the position (R75). -/
def Opnd.bits (o : Opnd) (w : Nat) : Nat :=
  match o with
  | .sl d => d.w.bits
  | _ => w

/-- A source extended to a type (R128): sign extension for S types, zero extension otherwise. -/
def State.val (s : State) (ty : ETy) (o : Opnd) (pos : Nat) (l : Lane) : Nat :=
  wrap ty.bits (intVal ty.isS (Opnd.bits o ty.bits) (s.raw o pos l))

/-- A result of a type in a destination of another width (R129). -/
def outVal (ty : ETy) (w : Nat) (v : Nat) : Nat := wrap w (intVal ty.isS ty.bits v)

/-- The lane at a position; there is none beyond the partition's lanes. -/
def State.laneAt (s : State) (pos : Nat) : Lane := s.dsrc.lanes.getD pos Lane.zero

/-- A lane takes part: its quadrant is enabled (R122, R146). -/
def DieRegs.on (r : DieRegs) (pos : Nat) : Bool := r.qmask.getLsbD (pos / 1024)

/-- A lane predicate as an instruction names it, renamed (R135). -/
def DieRegs.predAt (r : DieRegs) (p : PIdx) (l : Lane) : Bool := l.pred (renP r.prb p)

/-- One write and its events for each lane of the enabled quadrants where PG is true (R143, R152). -/
def State.eachLane (s : State) (pg : PIdx) (f : Nat → Lane → LaneW × Ev) : List (LaneW × Ev) :=
  let r := s.dsrc
  r.lanes.mapIdx fun pos l => if r.on pos && r.predAt pg l then f pos l else ({}, {})

/-- The events of each quadrant: those of its lanes together (R60). -/
def quadEvs (l : List (LaneW × Ev)) : List (Nat × Ev) :=
  (upto 4).map fun q => (q, ((l.drop (1024 * q)).take 1024).foldl (fun e x => e.or x.2) {})

/-! ### Writers (R379) -/

/-- The quadrants of a mask, as numbers. -/
def quadsOf (qm : BitVec 4) : List Nat := bitsOf qm

/-- The scoreboard's last writer of the slices of a set in some quadrants. -/
def Die.wrote (y : Die) (qm : BitVec 4) (ws : BitVec 512) (bsn : BitVec 48) (slot : Nat) : Die :=
  { y with
    lastw := (quadsOf qm).foldl (fun t q => (bitsOf ws).foldl (fun t p => Tbl.put t (512 * q + p) (bsn, slot)) t) y.lastw }

/-- Counts n events for the context that drives a die (R344). -/
def State.countDie (s : State) (d : Nat) (ev : BitVec 8) (n : Nat) : State :=
  match s.driver d with
  | some c => s.count c ev n
  | none => s

/-- Sends a slot's result on its way: it holds its write reservation until it lands (R136, R141). -/
def State.fly (s : State) (ws : BitVec 512) (pw : BitVec 16) (dcs : List (Nat × W64)) (evs : List (Nat × Ev))
    (lanes : List LaneW) : State :=
  let f : Flight :=
    { bsn := (s.cur.pkt.map (·.bsn)).getD 0, addr := (s.cur.pkt.map (·.addr)).getD 0, slot := s.cur.slot, load := false,
      qm := s.dsrc.qmask, ws := ws, pw := pw, lanes := lanes, dcs := dcs, evs := evs.filter fun e => e.2.any }
  { s with cur := { s.cur with claimed := (s.cur.slot, lanes) :: s.cur.claimed } }.updDx fun y =>
    { y.wrote s.dsrc.qmask ws f.bsn f.slot with flights := y.flights ++ [f] }

/-- The result of a lane-wise operation at type ty into vd (R129, R152). -/
def State.vecOut (s : State) (pg : PIdx) (ty : ETy) (vd : Dst) (f : Nat → Lane → Nat × Ev) : State :=
  let ps := s.dsrc.physD vd
  let r := s.eachLane pg fun pos l =>
    let v := f pos l
    (putSlices ps (outVal ty vd.w.bits v.1), v.2)
  s.fly (sliceSet ps) 0 [] (quadEvs r) (r.map (·.1))

/-- The result of a predicate operation into pd (R158, R167). -/
def State.predOut (s : State) (pg pd : PIdx) (f : Nat → Lane → Bool) : State :=
  let p := renP s.dsrc.prb pd
  let r := s.eachLane pg fun pos l => (putPred p (f pos l), {})
  s.fly 0 (BitVec.ofNat 16 (2 ^ p)) [] [] (r.map (·.1))

/-! ### Landing a result -/

/-- The logs of a die after a slot's events (R60). -/
def addEvs (logs : List FeLog) (bsn : BitVec 48) (addr : VA) (slot : Nat) (evs : List (Nat × Ev)) : List FeLog :=
  logs.mapIdx fun q l => (evs.filter (·.1 == q)).foldl (fun l e => l.arrive bsn addr slot e.2) l

/-- The dc registers after a slot's writes. -/
def putDcs (dcs : List W64) (w : List (Nat × W64)) : List W64 := w.foldl (fun d e => d.set e.1 e.2) dcs

/-- Lanes after a list of writes by position. -/
def applyLanes : List Lane → List LaneW → List Lane
  | l :: ls, w :: ws => l.apply w :: applyLanes ls ws
  | ls, _ => ls

/-- A written slice has good parity again (R379, R380). -/
def clearParity (par : List (Nat × Nat)) (ws : List LaneW) : List (Nat × Nat) :=
  par.filter fun e => !(ws.getD e.1 {}).m.getLsbD (4 * e.2)

/-- A unit of a die that is written whole is good again (R375). -/
def clearUnits (bad : List DieUnit) (ws : List LaneW) (dcs : List (Nat × W64)) : List DieUnit :=
  bad.filter fun u => match u with
    | .pred l p => !(ws.getD l {}).pm.getLsbD p
    | .dc n => !dcs.any fun e => e.1 == n
    | _ => true

/-- A flight lands: its lanes, dc registers and events (R136, R60). -/
def Die.land (y : Die) (f : Flight) : Die :=
  { y with
    regs := { y.regs with lanes := applyLanes y.regs.lanes f.lanes, dcs := putDcs y.regs.dcs f.dcs }
    felogs := addEvs y.felogs f.bsn f.addr f.slot f.evs
    parity := clearParity y.parity f.lanes
    bad := clearUnits y.bad f.lanes f.dcs }

end Sys2Proof.Machine
end

