-- ==== Sys2Proof/Machine/Errors.lean ====
section
/-! DEFINITION. Consumption of an uncorrectable error and the start of a segment rewind (R381 to R387). -/

namespace Sys2Proof.Machine

/-- A bundle lies beyond the RV bundle of a segment that has not committed: it is of the next segment (R384). -/
def Seg.inNext (g : Seg) (bsn : BitVec 48) : Bool := g.closing.any fun e => decide (e.1 < bsn)

/-- An operation that cannot be repeated has issued in the current segment (R385). -/
def State.unrepeatable (s : State) (c : Nat) : State :=
  s.updCtx c fun x =>
    { x with seg := if x.seg.closing.isSome then { x.seg with unrepNext := true } else { x.seg with unrep := true } }

/-- The destination register of a global access that waits for a result. -/
def SOp.dest : SOp → Option Reg
  | .load _ xd => some xd
  | .amo _ xd _ _ => some xd
  | .store _ => none

/-- A packet lies beyond the segment's RV bundle. -/
def Rewind.beyond (r : Rewind) (p : Packet) : Bool :=
  match r.expect with
  | some (b, _) => b < p.bsn
  | none => false

/-- Whether a packet of a die is dropped by a rewind: every unissued one on a faulted die, those beyond the segment's RV
bundle on the others (R386, steps 1 and 2). -/
def Rewind.drops (r : Rewind) (d : Nat) (p : Packet) : Bool :=
  r.faulted.contains d || r.beyond p

/-- A command that has moved nothing. -/
def Cmd.fresh (c : Cmd) : Cmd := { c with started := false, pos := 0, rpos := 0, part := [] }

/-- A faulted engine command starts again from its latched copies (R355): a fill's tile is PEND. -/
def Die.restartCmd (y : Die) (c : Cmd) : Die :=
  match c.kind with
  | .copyIn | .mcast _ _ =>
    let t := Tbl.get {} y.tiles c.tile
    { y with tiles := Tbl.set {} y.tiles c.tile { t with st := .empty, pend := true, ownv := true, owner := c.tout },
             cmds := y.cmds ++ [c.fresh] }
  | .copyOut =>
    let t := Tbl.get {} y.tiles c.tile
    { y with tiles := Tbl.set {} y.tiles c.tile { t with st := .draining, ownv := true, owner := c.tout },
             cmds := y.cmds ++ [{ c.fresh with started := true }] }
  | _ => { y with cmds := y.cmds ++ [{ c with started := true }] }

/-- The pending marks that failing remote lanes keep on their destination slices (R353). -/
def RAcc.mark (a : RAcc) : Nat × BitVec 512 := (a.lane, sliceSet a.dst)
def Die.markRemote (y : Die) (l : List RAcc) : Die := { y with marks := y.marks ++ (l.filter fun a => !a.dst.isEmpty).map RAcc.mark }
def Die.unmarkRemote (y : Die) (l : List RAcc) : Die := { y with marks := l.foldl (fun m a => m.erase a.mark) y.marks }

/-- The slot of repeated remote accesses holds its write reservation again (R136, R353). -/
def Die.reResv (y : Die) : List RAcc → Die
  | [] => y
  | a :: r =>
    if a.dst.isEmpty || y.resv.any fun v => v.bsn == a.bsn && v.slot == a.slot then y
    else { y with resv := y.resv ++ [{ bsn := a.bsn, slot := a.slot, qm := (a :: r).foldl (fun (m : BitVec 4) b =>
            m ||| BitVec.ofNat 4 (2 ^ (b.lane / 1024))) 0, ws := sliceSet a.dst }] }

/-- What a fault held back is put back (R353, R355). -/
def Die.putBack (y : Die) : Redo → Die
  | .slots p src m => { y with redo := some (.slots p src m) }
  | .remote l => { (y.unmarkRemote l).reResv l with rq := l ++ y.rq }
  | .cmd c => y.restartCmd c

/-- A die is to redo what its fault held back (R355). -/
def Die.redoFault (y : Die) : Die :=
  match y.fault with
  | none => y
  | some f => { y with fault := none }.putBack f.redo

/-- A die fault is discarded with the marks it kept (R386). -/
def Die.dropFault (y : Die) : Die :=
  match y.fault with
  | some f => { (match f.redo with | .remote l => y.unmarkRemote l | _ => y) with fault := none }
  | none => y

/-- A command put back beside a fault that stands is known as one that faulted. -/
def Redo.again : Redo → Redo
  | .cmd c => .cmd { c with again := true }
  | r => r

/-- A die keeps the fault of the lowest bundle; what another one held back stays to be done again (R353). -/
def Die.keepFault (y : Die) (f : DFault) : Die :=
  match y.fault with
  | none => { y with stopped := true, fault := some f }
  | some g => if f.bsn < g.bsn then { y with fault := some f }.putBack g.redo.again else y.putBack f.redo.again

/-- The commands that were put back start again like any others. -/
def Die.unagain (y : Die) : Die := { y with cmds := y.cmds.map fun c => { c with again := false } }

/-- A multicast that has not been read goes on without some dies (R214, R386). -/
def Cmd.without (c : Cmd) (ds : List Nat) : Cmd :=
  match c.kind with
  | .mcast m l => if c.buf.isNone then { c with kind := .mcast m (l.filter fun d => !ds.contains d) } else c
  | _ => c

/-- What a rewind drops from a die's decode queue (R386). A die fault of the segment is discarded: a consuming die replays its bundle, any
other does the faulted slot again, and so does an engine command of an earlier segment. -/
def Die.dropQueue (y : Die) (r : Rewind) (entry : BitVec 48) (d : Nat) : Die :=
  let mine := r.faulted.contains d
  let z := if mine && y.fault.all fun f => entry ≤ f.bsn then { y.dropFault with redo := none } else y.redoFault
  { z with queue := y.queue.filter (fun p => !r.drops d p), stopped := false, reps := y.reps.filter (·.bsn < entry),
           cmds := z.cmds.map fun k => if entry ≤ k.bsn then k.without r.faulted else k }

/-- The registers that a gathering operation writes. -/
def GKind.dests : GKind → List Reg
  | .sigadd _ xd _ _ _ => [xd]
  | .red _ xd => [xd]
  | .felog xd xe => [xd, xe]
  | .mstat xd => [xd]
  | _ => []

/-- The context restores a checkpoint (R383, R386, step 1). Waits, gathers and pending results of the bundles from the segment's entry on go
with what it held; SLM stays as it lies, and a restored register is good again. -/
def Ctx.restored (x : Ctx) (k : SeqCkpt) (entry : BitVec 48) : Ctx :=
  { x with
    lst := .running, sc := k.sc, pc := k.pc, bsn := k.bsn, loops := k.loops, rm := k.rm, goc := k.goc, dmasks := k.dmasks, rotn := k.rotn,
    port := x.port.filter fun a => a.bsn < entry
    pendX := k.pend
    wait := .none
    gathers := x.gathers.filter fun g => g.bsn < entry
    gops := x.gops.filter fun g => g.bsn < entry
    bad := x.bad.filter fun u => match u with
      | .slm _ => true
      | .resend _ => true
      | _ => false
    frozen := false
    trappend := false
    recFault := none }

/-- The context as a rewind of its segment leaves it (R386, step 1). What stopped it was a die fault, which is discarded or done again, or a
pre-emption, which goes on. -/
def Ctx.rewound (x : Ctx) (k : SeqCkpt) (r : Rewind) (dropped : List Nat) : Ctx :=
  { x.restored k x.seg.entry with
    wire := x.wire.filter fun e => !r.drops e.1 e.2
    resend := x.resend.filter fun p => !r.beyond p && p.replay.isNone
    credits := x.credits ++ dropped
    stopping := x.preempt
    seg := { x.seg with closing := none, next := none, unrepNext := false, rewind := some r } }

/-- A consumption beyond the RV bundle of a segment that has not committed: the context goes back to the entry of the next segment, of
which no die has issued a bundle (R384, R386). -/
def State.rewindNext (s : State) (c : Nat) : State :=
  let x := s.ctx c
  match x.seg.closing, x.seg.next with
  | some (b, _), some k =>
    let late (p : Packet) : Bool := b < p.bsn
    let inQ := (s.issueSet c).flatMap fun d => ((s.die d).queue.filter late).map fun _ => d
    let inW := (x.wire.filter fun e => late e.2).map (·.1)
    let s1 := s.updCtx c fun x =>
      { x.restored k (b + 1) with
        wire := x.wire.filter fun e => !late e.2
        resend := x.resend.filter fun p => !late p
        credits := x.credits ++ inQ ++ inW
        seg := { x.seg with unrepNext := false } }
    (s.issueSet c).foldl (fun t d => t.updDie d fun y => { y with queue := y.queue.filter fun p => !late p }) s1
  | _, _ => s

/-- Starts the rewind of a context's current segment with these faulted dies, for an error of a bank (R386, steps 1 and 2). A die fault that
the record held is discarded with it, and its slot runs again. -/
def State.startRewind (s : State) (c : Nat) (faulted : List Nat) (bank : Nat) : State :=
  let x := s.ctx c
  match x.seg.ckpt with
  | none => s.machineCheck c 0x0203 bank
  | some k =>
    let upto := match x.seg.rewind with
      | some r => if x.bsn < r.upto then r.upto else x.bsn
      | none => x.bsn
    let expect := match x.seg.rewind with
      | some r => if r.expect.isSome then r.expect else x.seg.closing
      | none => x.seg.closing
    let fs := match x.seg.rewind with
      | some r => faulted ++ r.faulted.filter fun d => !faulted.contains d
      | none => faulted
    let r : Rewind := { faulted := fs, restored := [], upto := upto, expect := expect, replaying := false, bank := bank }
    let inQ := (s.issueSet c).flatMap fun d => ((s.die d).queue.filter (r.drops d)).map fun _ => d
    let inW := (x.wire.filter fun e => r.drops e.1 e.2).map (·.1)
    let s0 := match x.recFault with
      | some (d, f) => if fs.contains d && x.seg.entry ≤ f.bsn then s else s.updDie d fun y => y.putBack f.redo
      | none => s
    let s1 := s0.updCtx c fun y => y.rewound k r (inQ ++ inW)
    (s.issueSet c).foldl (fun t d => t.updDie d fun y => y.dropQueue r x.seg.entry d) s1

/-- The segment that consumes an error counts it (R386). -/
def Seg.consumes (g : Seg) (late : Bool) : Seg :=
  if late then { g with consumedNext := g.consumedNext + 1 } else { g with consumed := g.consumed + 1 }

/-- Uncorrectable errors, and corrected ones found with them, are consumed by a context at the bundle of a BSN (R381, R385 to R387): their
banks record them; a speculative run is discarded (R309); an error in live-in state, in an unrepeatable segment or for the fourth time is a
machine check; otherwise the segment of the bundle rewinds. A context that a machine check or KILL has ended only records them. `faulted`
lists the consuming dies, and every die for an error of the sequencer; `bank` is the bank that a machine check names. -/
def State.consumeAll (s : State) (c : Nat) (faulted : List Nat) (bank : Nat) (es : List (Nat × ErrIn)) (bsn : BitVec 48) (livein : Bool) :
    State :=
  let x := s.ctx c
  let part := if c == purser then none else some c
  let log (mc : Bool) : State :=
    s.logErrs (es.map fun e => (e.1, if e.2.uc then { e.2 with mc := mc, part := part } else e.2))
  let late := x.seg.inNext bsn
  if x.isSpec then (log false).discard c 62
  else if x.mcheck || x.killed then log false
  else if livein then (log true).machineCheck c 0x0202 bank
  else if (if late then x.seg.unrepNext else x.seg.unrep) then (log true).machineCheck c 0x0203 bank
  else if 3 ≤ (if late then x.seg.consumedNext else x.seg.consumed) then (log true).machineCheck c 0x0205 bank
  else
    let t := (log false).updCtx c fun x => { x with seg := x.seg.consumes late }
    if late then t.rewindNext c else t.startRewind c faulted bank

/-- An uncorrectable error is consumed by a context at a bundle. -/
def State.consume (s : State) (c : Nat) (faulted : List Nat) (bank : Nat) (e : ErrIn) (bsn : BitVec 48) (livein : Bool) : State :=
  s.consumeAll c faulted bank [(bank, { e with uc := true, w3 := bsn.setWidth 64 })] bsn livein

/-- A die consumes an error for its driving context; BSN of the consuming bundle in word 3 (R381, R392). -/
def State.dieConsume (s : State) (d bank : Nat) (kind : BitVec 4) (w1 : W64) (bsn : BitVec 48) : State :=
  match s.driver d with
  | some c =>
    s.consume c [d] bank { uc := true, kind := kind, w1 := w1, w2 := Config.syndrome s.stepNo } bsn false
  | none => s

/-- A poisoned line that a die's context receives (R381). -/
def State.diePoison (s : State) (d pa : Nat) (bsn : BitVec 48) : State :=
  s.dieConsume d (memBank pa) 5 (w64 pa) bsn

end Sys2Proof.Machine
end

