-- ==== Sys2Proof/Machine/DieOps.lean ====
section
/-! DEFINITION. Shared operations of a die: tokens (R259), tiles and their bytes (R198, R208, R209, R211), the scratchpad
(R196, R199), die faults (R352, R353). -/

namespace Sys2Proof.Machine

/-! ### Tokens (R177, R259) -/

/-- A token is PEND. -/
def Die.pend (y : Die) (t : Tok) : Bool := y.toks.getD t.toNat false
def Die.setTok (y : Die) (t : Tok) (p : Bool) : Die :=
  { y with toks := y.toks.set t.toNat p, bad := y.bad.filter (· != .tok t.toNat) }

/-- A slot's command is complete: its token is DONE, unless a higher slot of its bundle named the same token (R71, R259). -/
def Die.endTok (y : Die) (bsn : BitVec 48) (slot : Nat) (t : Tok) : Die :=
  if y.mutes.contains (bsn, slot) then { y with mutes := y.mutes.erase (bsn, slot) } else y.setTok t false

/-- The tokens a slot consumes (R177). -/
def Toks.named (t : Toks) : List Tok :=
  (if t.tv.getLsbD 0 then [t.t0] else []) ++ (if t.tv.getLsbD 1 then [t.t1] else []) ++
    (if t.tv.getLsbD 2 then [t.t2] else [])

/-- The die as the slots of its bundle see its tokens and tiles: as they were before the bundle (R70). -/
def State.y0 (s : State) : Die := { s.dx with toks := s.cur.toks0.getD s.dx.toks, tiles := s.cur.tiles0.getD s.dx.tiles }

/-- An engine instruction waits while a token it consumes, or the one it produces, is PEND (R179, R259). -/
def Die.tokWait (y : Die) (tout : Tok) (tin : List Tok) : Bool := y.pend tout || tin.any y.pend

/-! ### Scratchpad and tiles -/

/-- Banks of a base die's partition (R197, R198). -/
def State.nb (s : State) : Nat := if s.unprot then 16 else 32

/-- Bytes of a way of every bank (R198). -/
def State.wayBytes (s : State) : Nat := s.nb * 4096 * 128

/-- The scratchpad's size (R198, R199). -/
def State.padSize (s : State) (d : Nat) : Nat := (s.die d).w.toNat * s.wayBytes

/-- The scratchpad offset of byte t of a tile at offset b, in the swizzled layout (R208). -/
def swizzle (nb b t : Nat) : Nat :=
  let l := t / 128
  ((b + t) / (128 * nb) * nb + ((l % nb) ^^^ (l / nb % nb))) * 128 + t % 128

def Die.tile (y : Die) (t : BitVec 8) : Tile := Tbl.get {} y.tiles t.toNat
def Die.setTile (y : Die) (t : BitVec 8) (x : Tile) : Die := { y with tiles := Tbl.set {} y.tiles t.toNat x }
def Die.updTile (y : Die) (t : BitVec 8) (f : Tile → Tile) : Die := y.setTile t (f (y.tile t))

/-- A tile's size and offset in bytes (R209). -/
def Tile.bytes (x : Tile) : Nat := x.size.toNat * 4096
def Tile.base (x : Tile) : Nat := x.off.toNat * 4096

/-- The scratchpad offset of a tile's byte (R208). -/
def State.tileAddr (s : State) (x : Tile) (t : Nat) : Nat := if x.swz then swizzle s.nb x.base t else x.base + t

/-- A byte of the scratchpad; one that nothing has written reads as zero (log 1). -/
def Die.padByte (y : Die) (o : Nat) : Byte := y.vault.get 0 o
/-- A byte written; a granule with an error is good again once every byte of it has been written (R375). -/
def Die.setPad (y : Die) (o : Nat) (v : Byte) : Die := { y with vault := Tbl.set 0 y.vault o v, vpoison := y.vpoison.filter (· != o) }

/-- n bytes of the scratchpad as a number. -/
def Die.padRd (y : Die) (o : Nat) : Nat → Nat
  | 0 => 0
  | n + 1 => (y.padByte o).toNat + 256 * y.padRd (o + 1) n

/-- Stores the n low bytes of a number to the scratchpad. -/
def Die.padWr (y : Die) (o : Nat) : Nat → Nat → Die
  | 0, _ => y
  | n + 1, v => (y.setPad o (BitVec.ofNat 8 v)).padWr (o + 1) n (v / 256)

/-- n bytes of a tile from byte t on, through its layout. -/
def State.tileRd (s : State) (y : Die) (x : Tile) (t : Nat) : Nat → Nat
  | 0 => 0
  | n + 1 => (y.padByte (s.tileAddr x t)).toNat + 256 * s.tileRd y x (t + 1) n

/-- Stores n bytes to a tile, through its layout. -/
def State.tileWr (s : State) (y : Die) (x : Tile) (t : Nat) : Nat → Nat → Die
  | 0, _ => y
  | n + 1, v => s.tileWr (y.setPad (s.tileAddr x t) (BitVec.ofNat 8 v)) x (t + 1) n (v / 256)

/-- Entries of a quadrant's scoreboard of vertical transfers that a load of these lanes takes: one for each 128-byte line its lanes name,
and no more than there are (R204; log 21). -/
def tagsOf (l : List (Nat × Nat)) : List Nat :=
  (upto 4).map fun q => min 256 (((l.filter fun e => e.1 / 1024 == q).map fun e => e.2 / 128).eraseDups.length)

/-- An access that brings a value back holds an entry from request to return (R204). -/
def LOp.returns : LOp → Bool
  | .store _ => false
  | _ => true

/-- Entries of a quadrant that the outstanding loads of a bundle hold: those of its data in flight, and one for each line of 128 bytes that its
global and remote lanes still wait for; an instruction that needs more reuses the 256 that there are (R204, R221; log 21). -/
def Die.tagsHeld (y : Die) (b : BitVec 48) (q : Nat) : Nat :=
  let g := (y.gq.filter fun a => a.bsn == b && a.op.returns && a.lane / 1024 == q).map fun a => (0, a.va / 128)
  let r := (y.rq.filter fun a => a.bsn == b && a.op.returns && a.lane / 1024 == q).map fun a => (a.die + 1, a.off / 128)
  min 256 (((y.flights.filter (·.bsn == b)).map fun f => f.tags.getD q 0).sum + (g ++ r).eraseDups.length)

/-- The bundles with outstanding loads. -/
def Die.loading (y : Die) : List (BitVec 48) :=
  ((y.flights.filter (·.load)).map (·.bsn) ++ y.gq.map (·.bsn) ++ y.rq.map (·.bsn)).eraseDups

/-- The entries that a slot of a bundle needs beside those that its bundle holds are free: the loads of other bundles leave as many (R204). -/
def Die.tagsFree (y : Die) (b : BitVec 48) (t : List Nat) : Bool :=
  t.zipIdx.all fun e => min 256 (e.1 + y.tagsHeld b e.2) + ((y.loading.filter (· != b)).map fun k => y.tagsHeld k e.2).sum ≤ 256

/-- The 16-byte granules of the scratchpad with an uncorrectable error (R375). -/
def Die.hurtGrans (y : Die) : List Nat := (y.vpoison.map (· / 16)).eraseDups

/-- Some granule of the scratchpad range is such a one. -/
def Die.padBad (y : Die) (o n : Nat) : Bool := y.vpoison.any fun b => o / 16 ≤ b / 16 && b / 16 ≤ (o + n - 1) / 16

/-- The scratchpad offsets of such granules. -/
def Die.badGrans (y : Die) (o n : Nat) : List Nat := (y.hurtGrans.filter fun g => o / 16 ≤ g && g ≤ (o + n - 1) / 16).map (16 * ·)

/-- Some granule of a tile's range holds an uncorrectable error. -/
def State.tileBad (s : State) (y : Die) (x : Tile) (t n : Nat) : Bool :=
  !y.vpoison.isEmpty && (upto n).any fun i => y.hurtGrans.contains (s.tileAddr x (t + i) / 16)

/-- The scratchpad offsets of such granules. -/
def State.tileGrans (s : State) (y : Die) (x : Tile) (t n : Nat) : List Nat :=
  (y.hurtGrans.filter fun g => (upto n).any fun i => s.tileAddr x (t + i) / 16 == g).map (16 * ·)

/-- The entry BSN of the current segment of a die's driver. -/
def State.segEntry (s : State) (d : Nat) : BitVec 48 := (s.driver d).elim 0 fun c => (s.ctx c).seg.entry

/-- The error bank of a vault (R390). -/
def State.vaultBank (s : State) (d : Nat) : Nat := s.dieBank d 4

/-- The vault address of a scratchpad offset of a die (R196). -/
def State.vaultAt (s : State) (d o : Nat) : Nat := s.cdn d * 2 ^ 28 + o

/-- A slot of a die consumes every bad granule of a vault's scratchpad that it reads at once: one error for each, its vault address in ERBW1
(R381, R391, R392). `t` is the vault's die. -/
def State.vaultConsume (s : State) (d t : Nat) (gs : List Nat) (bsn : BitVec 48) : State :=
  match s.driver d with
  | some c =>
    s.consumeAll c [d] (s.vaultBank t) (gs.map fun o => (s.vaultBank t,
      { uc := true, kind := 2, w1 := w64 (s.vaultAt t o), w2 := Config.syndrome s.stepNo, w3 := bsn.setWidth 64 })) bsn false
  | none => s

/-! ### Parity (R379, R380) -/

/-- The lane write of a load that has returned, as the replay queue holds it. -/
def Replay.loaded (q : Replay) (slot pos : Nat) : Option LaneW := (q.data.find? fun e => e.1 == slot && e.2.1 == pos).map (·.2.2)

/-- The replay queue takes the data that a load returns (R379). -/
def Die.keepData (y : Die) (bsn : BitVec 48) (slot : Nat) (l : List (Nat × LaneW)) : Die :=
  { y with replayQ := y.replayQ.map fun q =>
      if q.pkt.bsn == bsn then { q with data := q.data ++ l.map fun e => (slot, e.1, e.2) } else q }

/-- The bundle of the replay queue that last wrote a slice of a lane, with its slot, if it can repair the slice: the slot is V0, V1 or LD,
its predicate was true in the lane, and the data of a load are there (R380). Where a rewind has had a bundle issue twice, the later issue is
meant. -/
def Die.repairer (y : Die) (e : Nat × Nat) : Option (Replay × Nat) :=
  match Tbl.get? y.lastw (512 * (e.1 / 1024) + e.2) with
  | some (b, k) =>
    (y.replayQ.filter (·.pkt.bsn == b)).getLast?.bind fun q =>
      let on := (q.pgs.find? (·.1 == k)).any fun g => q.src.predAt g.2 (q.src.lanes.getD e.1 Lane.zero)
      if on && (k == 1 || k == 2 || (k == 4 && (q.loaded k e.1).isSome)) then some (q, k) else none
  | none => none

/-- A bad slice can be repaired in place (R380). -/
def Die.repairable (y : Die) (e : Nat × Nat) : Bool := (y.repairer e).isSome

/-- Repairs one slice of a lane: a load's data are written again, and a V slot done again gives what the slice held (R380). -/
def Die.repairOne (y : Die) (e : Nat × Nat) : Die :=
  let z := { y with parity := y.parity.filter (· != e) }
  match (y.repairer e).bind fun r => r.1.loaded r.2 e.1 with
  | some w =>
    let m : BitVec 2048 := BitVec.ofNat 2048 (15 * 2 ^ (4 * e.2))
    { z with regs := { z.regs with lanes := z.regs.lanes.modify e.1 fun l => l.apply { m := w.m &&& m, v := w.v } } }
  | none => z

def Die.repair (y : Die) (l : List (Nat × Nat)) : Die := l.foldl Die.repairOne y

/-- The record of a bad slice: `low` is the lane, or the row of an MMUL (R382, R391, R392). -/
def State.sliceErr (s : State) (d : Nat) (uc : Bool) (bsn : BitVec 48) (low : Nat) (e : Nat × Nat) : Nat × ErrIn :=
  (s.dieBank d (e.1 / 1024),
    { uc := uc, kind := 1, w1 := w64 (4096 * e.2 + low), w2 := Config.syndrome s.stepNo, w3 := if uc then bsn.setWidth 64 else 0 })

/-- Slices are repaired, and their banks record it. -/
def State.repairAll (s : State) (d : Nat) (l : List (Nat × Nat)) : State :=
  (s.updDie d fun y => y.repair l).logErrs (l.map fun e => s.sliceErr d false 0 e.1 e)

/-! ### Die faults (R352, R353, R357) -/

/-- The die slots of a packet as a mask. -/
def Packet.present (p : Packet) : BitVec 8 := p.slots.foldl (fun (m : BitVec 8) e => m ||| BitVec.ofNat 8 (2 ^ e.1)) 0

/-- The die slots of the bundle in progress. -/
def State.present (s : State) : BitVec 8 := (s.cur.pkt.map Packet.present).getD 0

/-- A mask of slots without one of them. -/
def dropSlot (m : BitVec 8) (slot : Nat) : BitVec 8 := m &&& ~~~(BitVec.ofNat 8 (2 ^ slot))

/-- The sideband of the bundle in progress at a die. -/
def State.pbsn (s : State) : BitVec 48 := (s.cur.pkt.map (·.bsn)).getD 0
def State.paddr (s : State) : VA := (s.cur.pkt.map (·.addr)).getD 0

/-- Records a die fault and stops the die: it issues nothing more (R352, R353). A speculative run is discarded instead (R309). -/
def State.raiseDie (s : State) (d : Nat) (f : DFault) : State :=
  match s.driver d with
  | some c =>
    if (s.ctx c).isSpec then (s.discard c 62).updDie d fun y => { y with stopped := true }
    else s.updDie d fun y => y.keepFault f
  | none => s.updDie d fun y => y.keepFault f

/-- A slot of the bundle at a die raises a die fault at its issue: the slot has no effect, its token does not complete, and the
other slots of the bundle complete (R193, R233, R239, R352). The completion mask is filled in when the bundle has issued. -/
def State.dieFault (s : State) (cause : BitVec 16) (data : Nat) (lanes : List Nat) : State :=
  let p : Packet := s.cur.pkt.getD
    { rv := false, rep := false, slots := [], words := [], wregs := [], bsn := 0, addr := 0, rm := 0, pass := 0, rotn := 0,
      desc := none, replay := none }
  let f : DFault :=
    { bsn := p.bsn, addr := p.addr, slot := s.cur.slot, cause := cause, data := data, lanes := lanes, walk := 0,
      field := p.field s.cur.slot, scw := p.words, cmask := 0, redo := .slots p s.dsrc 0 }
  { s.raiseDie s.cur.die f with cur := { s.cur with failed := s.cur.slot :: s.cur.failed } }

end Sys2Proof.Machine
end

