-- ==== Sys2Proof/Machine/Matrix.lean ====
section
/-! DEFINITION. The M slot (R174 to R193) and the array's arithmetic (R42, R43, R58, R59): MLDS, MSWAP, MZERO, MMUL, the
completion of a weight load and the drain of a stream row. -/

namespace Sys2Proof.Machine

/-! ### Weights (R42, R43, R181) -/

/-- A G4 or G3 code with its BF16 scale as W12 (R43). -/
def groupW (c : Int) (scale : Nat) : Nat × Ev :=
  match FV.dec .bf16 scale with
  | .nan => (Fmt.w12.nanBits, {})
  | .inf sg => if c = 0 then (Fmt.w12.nanBits, { inv := true }) else (signed .w12 (sg != decide (c < 0)) Fmt.w12.infBits, {})
  | .fin sg m e =>
    let r := roundFin .w12 .rne false (sg != decide (c < 0)) (m * c.natAbs) e
    (r.1, { ovf := r.2.ovf })

/-- A BF16, FP8A or FP8B weight as W12, exactly (R43). -/
def plainW (f : Fmt) (v : Nat) : Nat × Ev := ((deliver .w12 .rne false (FV.dec f v)).1, {})

/-- The bytes of a block and of its scales (R181). -/
def WTy.blockBytes : WTy → Nat
  | .bf16 => 32768
  | .fp8a | .fp8b => 16384
  | .g4 => 8192
  | .g3 => 6144

/-- Weight W[k][n] of a block whose byte t reads as rd t (n bytes at a time) (R181). -/
def weightAt (wt : WTy) (tr : Bool) (rd : Nat → Nat → Nat) (ow os k n : Nat) : Nat × Ev :=
  let i := if tr then 128 * n + k else 128 * k + n
  match wt with
  | .bf16 => plainW .bf16 (rd (ow + 2 * i) 2)
  | .fp8a => plainW .fp8a (rd (ow + i) 1)
  | .fp8b => plainW .fp8b (rd (ow + i) 1)
  | .g4 =>
    let j := 128 * n + k
    groupW (intVal true 4 (rd (ow + j / 2) 1 / 2 ^ (j % 2 * 4))) (rd (os + 2 * (j / 32)) 2)
  | .g3 =>
    let j := 128 * n + k
    groupW (intVal true 3 (rd (ow + 3 * j / 8) 2 / 2 ^ (3 * j % 8))) (rd (os + 2 * (j / 32)) 2)

/-- One column of a block with its events. -/
def columnAt (wt : WTy) (tr : Bool) (rd : Nat → Nat → Nat) (ow os n : Nat) : List (BitVec 20) × Ev :=
  let c := (upto 128).map fun k => weightAt wt tr rd ow os k n
  (c.map fun x => BitVec.ofNat 20 x.1, c.foldl (fun (e : Ev) x => e.or x.2) {})

/-- A block as a plane with its events. -/
def planeAt (wt : WTy) (tr : Bool) (rd : Nat → Nat → Nat) (ow os : Nat) : Plane × Ev :=
  let p := (upto 128).map (columnAt wt tr rd ow os)
  (p.map (·.1), p.foldl (fun (e : Ev) x => e.or x.2) {})

/-- OW(q) and OS(q): exact, without wrap (R181). -/
def offQ (x : W64) (q : Nat) : Nat := bf x 31 0 + q * bf x 63 32

/-- The enabled quadrants of the bundle in progress (R180). -/
def State.quads (s : State) : List Nat := quadsOf s.dsrc.qmask

/-- MLDS (R181 to R183, R193): token and tile waits, the faults in their order, then the read of the tile as earlier bundles
left it. The converted planes wait in M-slot order. -/
def execMlds (a : MldsA) (s : State) : Host.Outcome State Fault Refusal :=
  let y := s.dx
  let t := y.tile a.tw
  let xw := s.px a.xw
  let xs := s.px a.xs
  let qs := s.quads
  let n := WTy.blockBytes a.wt
  .next (
    if y.tokWait a.tout (Toks.named a.tin) then s.stall
    else if t.st == .empty && !t.pend then s.dieFault 0x0101 0 []
    else if t.st != .ready then s.stall
    else if qs.any fun q => offQ xw q % 64 != 0 || (a.wt.grouped && offQ xs q % 64 != 0) then s.dieFault 0x0103 0 []
    else if qs.any fun q => t.bytes < offQ xw q + n || (a.wt.grouped && t.bytes < offQ xs q + 1024) then
      s.dieFault 0x0102 0 []
    else
      let ps := qs.map fun q => (q, planeAt a.wt a.t (fun o k => s.tileRd y t o k) (offQ xw q) (offQ xs q))
      let bad := if y.vpoison.isEmpty then [] else (qs.flatMap fun q =>
        s.tileGrans y t (offQ xw q) n ++ (if a.wt.grouped then s.tileGrans y t (offQ xs q) 1024 else [])).eraseDups
      let it : MItem :=
        .load s.pbsn s.paddr a.tout a.tw.toNat (ps.map fun p => (p.1, p.2.1)) (ps.map fun p => (p.1, p.2.2)) bad
      s.updDx fun y => { (y.updTile a.tw fun t => { t with busy := true }).setTok a.tout true with mq := y.mq ++ [it] })

/-- An entry of the M-slot order that loads the tile. -/
def MItem.loads (t : Nat) : MItem → Bool
  | .load _ _ _ tile _ _ _ => tile == t
  | .zero _ => false

/-- The shadow planes after a weight load or an MZERO (R181, R184). -/
def loadPlanes (arrs : List Arr) (bsn : BitVec 48) (ps : List (Nat × Plane)) : List Arr :=
  arrs.mapIdx fun q r =>
    match ps.find? (·.1 == q) with
    | some p => { r with shadow := p.2, badS := false, fillS := some bsn }
    | none => r

def zeroPlanes (arrs : List Arr) (qm : BitVec 4) : List Arr :=
  arrs.mapIdx fun q r => if qm.getLsbD q then { r with shadow := [], badS := false, fillS := none } else r

/-- The MZEROs at the head of the M-slot order act (R176, R184). -/
def Die.runZeros (y : Die) : List MItem → Die
  | .zero qm :: r => ({ y with arrs := zeroPlanes y.arrs qm }).runZeros r
  | q => { y with mq := q }

/-- The oldest weight load completes: its planes, events and token, and the tile is no longer busy (R183, R211). A load that
met an uncorrectable error of the vault is consumed instead (R381). -/
def execMldsComplete (die : Nat) (s : State) : Host.Outcome State Fault Refusal :=
  .next (match (s.die die).mq with
    | .load bsn addr tout tile ps evs bad :: r =>
      let y := s.die die
      let tn := BitVec.ofNat 8 tile
      let y1 := if r.any (MItem.loads tile) then y else y.updTile tn fun t => { t with busy := false }
      if !bad.isEmpty then (s.setDie die (y1.runZeros r)).vaultConsume die die bad bsn
      else
        let y2 := { y1.endTok bsn 3 tout with arrs := loadPlanes y1.arrs bsn ps, felogs := addEvs y1.felogs bsn addr 3 evs }
        s.setDie die (y2.runZeros r)
    | _ => s)

/-! ### MSWAP and MZERO (R184) -/

/-- The exchange of the planes of the enabled quadrants. -/
def swapPlanes (arrs : List Arr) (qm : BitVec 4) : List Arr :=
  arrs.mapIdx fun q r =>
    if qm.getLsbD q then
      { r with act := r.shadow, shadow := r.act, badA := r.badS, badS := r.badA, fillA := r.fillS, fillS := r.fillA }
    else r

/-- MSWAP waits until every earlier MLDS and MZERO has completed; earlier MMULs have captured their planes (R176). -/
def execMswap (s : State) : Host.Outcome State Fault Refusal :=
  .next (if !s.dx.mq.isEmpty then s.stall else s.updDx fun y => { y with arrs := swapPlanes y.arrs s.dsrc.qmask })

/-- MZERO acts in M-slot order, behind the weight loads issued before it. -/
def execMzero (s : State) : Host.Outcome State Fault Refusal :=
  .next (s.updDx fun y =>
    if y.mq.isEmpty then { y with arrs := zeroPlanes y.arrs s.dsrc.qmask }
    else { y with mq := y.mq ++ [.zero s.dsrc.qmask] })

/-! ### MMUL (R185 to R189) -/

def ATy.fmt : ATy → Fmt
  | .bf16 => .bf16
  | .fp8a => .fp8a
  | .fp8b => .fp8b

/-- Slices of an activation (R185). -/
def ATy.slices : ATy → Nat
  | .bf16 => 4
  | _ => 2

/-- The stream cycle, counted from issue, in which row m enters (R185). -/
def ATy.entry (t : ATy) (m : Nat) : Nat :=
  match t with
  | .bf16 => m
  | _ => m / 2

/-- The view vwA fits the activation type, and vwC is an ACC view (R186). -/
def mviewOk (t : ATy) (va vc : W64) : Bool :=
  vwKind va == 1 && bf va 51 49 == (match t with | .bf16 => 3 | _ => 1) && vwKind vc == 2

/-- The name of the first A slice and ACC slice of a row group, modulo 512 (R185). -/
def aName (va : W64) (t : ATy) (j g : Nat) : Nat :=
  (((vwBase va : Int) + j * sx 9 (vwP2 va) + g * (ATy.slices t : Nat)) % 512).toNat
def cName (vc : W64) (j g : Nat) : Nat := (((vwBase vc : Int) + j * sx 10 (vwP1 vc) + g * 8) % 512).toNat

/-- The physical slices of n names from `start` on, modulo 512 (R133, R185). -/
def DieRegs.physWrap (r : DieRegs) (start n : Nat) : List Nat := (upto n).map fun k => renSl r.views ((start + k) % 512)

/-- The activations of row m in a quadrant: lane (m mod 8) × 128 + k (R185). -/
def rowActs (lanes : List Lane) (q m : Nat) (ps : List Nat) : List Nat :=
  ((lanes.drop (1024 * q + m % 8 * 128)).take 128).map fun l => l.rd ps

/-- The slices with bad parity that the A rows from a on, n of them, read, each with its row (R380). -/
def MMulOp.aHurt (o : MMulOp) (par : List (Nat × Nat)) (a n : Nat) : List (Nat × Nat × Nat) :=
  if par.isEmpty then []
  else (upto n).flatMap fun i =>
    (par.filter fun e => o.qm.getLsbD (e.1 / 1024) && e.1 % 1024 / 128 == (a + i) % 8 && (o.aSl.getD ((a + i) / 8) []).contains e.2).map
      fun e => (a + i, e)

/-- Those of the ACC slices that an ADD-mode drain of row m reads. -/
def MMulOp.cHurt (o : MMulOp) (par : List (Nat × Nat)) (m : Nat) : List (Nat × Nat × Nat) :=
  if o.add then
    (par.filter fun e => o.qm.getLsbD (e.1 / 1024) && e.1 % 1024 / 128 == m % 8 && (o.cSl.getD (m / 8) []).contains e.2).map
      fun e => (m, e)
  else []

/-- Latches rows from the next one on, while they have entered by stream cycle `t` (R185). -/
def MMulOp.latch (o : MMulOp) (lanes : List Lane) (t : Nat) : Nat → MMulOp
  | 0 => o
  | n + 1 =>
    let m := o.latched.length
    if m < o.rows && ATy.entry o.aty m ≤ t then
      let row := (quadsOf o.qm).map fun q => (q, rowActs lanes q m (o.aSl.getD (m / 8) []))
      ({ o with latched := o.latched ++ [row] }).latch lanes t n
    else o

/-- Every A slice and every ACC slice of an MMUL. -/
def MMulOp.reads (o : MMulOp) : BitVec 512 := sliceSet o.aSl.flatten
def MMulOp.writes (o : MMulOp) : BitVec 512 := sliceSet o.cSl.flatten

/-- A later MMUL follows an earlier one without waiting: the same ACC slices row for row, rows and rate (R188). The model also asks for the
same quadrants, which R188 leaves open and which is time only (log 21). -/
def MMulOp.follows (o e : MMulOp) : Bool :=
  o.cSl == e.cSl && o.rows == e.rows && (o.aty == .bf16) == (e.aty == .bf16) && o.qm == e.qm

/-- The slices of each lane that an MMUL's drain writes, as claims of the M slot (R71, R147). -/
def MMulOp.claims (o : MMulOp) (nl : Nat) : List LaneW :=
  (upto nl).map fun pos =>
    if o.qm.getLsbD (pos / 1024) then
      ((upto ((o.rows + 7) / 8)).filter fun g => 8 * g + pos % 1024 / 128 < o.rows).foldl
        (fun w g => { w with m := w.m ||| (putSlices (o.cSl.getD g []) 0).m }) {}
    else {}

/-- The MLDS that filled a plane is still in the replay queue: a bad plane is reloaded (R375). -/
def Die.reloads (y : Die) (fill : Option (BitVec 48)) : Bool := fill.any fun b => y.replayQ.any (·.pkt.bsn == b)

/-- Quadrants whose bad active plane is reloaded, and those where it cannot be. -/
def Die.planesFixed (y : Die) (qs : List Nat) : List Nat :=
  qs.filter fun q => (y.arrs.getD q Arr.reset).badA && y.reloads (y.arrs.getD q Arr.reset).fillA
def Die.planesBad (y : Die) (qs : List Nat) : List Nat :=
  qs.filter fun q => (y.arrs.getD q Arr.reset).badA && !y.reloads (y.arrs.getD q Arr.reset).fillA

/-- The planes of a quadrant that an MLDS filled are good again. -/
def goodPlane (fill : Option (BitVec 48)) (a : Arr) : Arr :=
  { a with badA := a.badA && a.fillA != fill, badS := a.badS && a.fillS != fill }

/-- The record of a bad plane; `row` is the MMUL row that meets it (R382, R391). -/
def State.planeErr (s : State) (d : Nat) (uc : Bool) (bsn : BitVec 48) (row q : Nat) : Nat × ErrIn :=
  (s.dieBank d q,
    { uc := uc, kind := 1, w1 := if uc then w64 row else 0, w2 := Config.syndrome s.stepNo, w3 := if uc then bsn.setWidth 64 else 0 })

/-- An ACC slice of a quadrant was last written before the segment's entry (R382). -/
def Die.liveAcc (y : Die) (cSl : List (List Nat)) (entry : BitVec 48) (q : Nat) : Bool :=
  cSl.flatten.any fun p =>
    match Tbl.get? y.lastw (512 * q + p) with
    | some (b, _) => b < entry
    | none => true

/-- The MLDS that filled the plane an MMUL captured in a quadrant. -/
def MMulOp.fill (o : MMulOp) (q : Nat) : Option (BitVec 48) := ((o.fills.find? (·.1 == q)).map (·.2)).getD none

/-- Live-in: some ADD-mode ACC slice last written before the segment's entry, or a bad plane filled in an earlier segment (R382). -/
def MMulOp.liveIn (o : MMulOp) (entry : BitVec 48) : Bool :=
  !o.live.isEmpty || o.bad.any fun q => (o.fill q).any fun b => decide (b < entry)

/-- MMUL issues (R179, R185 to R188): token waits, MATRIX_VIEW, the wait for the planes under SW and the scoreboard, then the
capture of the planes and of the rows that enter before the first drain. -/
def execMmul (a : MmulA) (s : State) : Host.Outcome State Fault Refusal :=
  let r := s.dsrc
  let y := s.dx
  let va := r.views.getD a.av.toNat 0
  let vc := r.views.getD a.cv.toNat 0
  let rows := a.rows.toNat + 1
  let j := match s.cur.pkt with
    | some p => if p.rep then p.pass else 0
    | none => 0
  let gs := upto ((rows + 7) / 8)
  .next (
    if y.tokWait a.tout (Toks.named a.tin) then s.stall
    else if !mviewOk a.aty va vc then s.dieFault 0x0104 0 []
    else if a.sw && !y.mq.isEmpty then s.stall
    else
      let arrs := if a.sw then swapPlanes y.arrs r.qmask else y.arrs
      let y1 := { y with arrs := arrs }
      let o : MMulOp :=
        { bsn := s.pbsn, addr := s.paddr, tout := a.tout, aty := a.aty, add := a.add, rows := rows, qm := r.qmask,
          aSl := gs.map fun g => r.physWrap (aName va a.aty j g) (ATy.slices a.aty),
          cSl := gs.map fun g => r.physWrap (cName vc j g) 8,
          planes := s.quads.map fun q => (q, (arrs.getD q Arr.reset).act),
          fills := s.quads.map fun q => (q, (arrs.getD q Arr.reset).fillA), latched := [], next := 0, clip := [],
          bad := y1.planesBad s.quads, hurt := [], live := [] }
      let live := if a.add then s.quads.filter (y.liveAcc o.cSl (s.segEntry s.cur.die)) else []
      let o1 := ({ o with live := live }).latch r.lanes 132 rows
      let met := o1.aHurt y.parity 0 o1.latched.length
      let o2 := { o1 with hurt := met.filter fun e => !y.repairable e.2 }
      let fixed := y1.planesFixed s.quads
      let y2 := { y1.setTok a.tout true with
        mmuls := y1.mmuls ++ [o2]
        arrs := y1.arrs.mapIdx fun q (r : Arr) => if fixed.contains q then { r with badA := false } else r }
      let s1 := (s.setDie s.cur.die (y2.wrote r.qmask o.writes o.bsn 3)).logErrs (fixed.map (s.planeErr s.cur.die false 0 0))
      { s1.repairAll s.cur.die ((met.filter fun e => y.repairable e.2).map (·.2)).eraseDups with
        cur := { s.cur with claimed := (3, o.claims r.lanes.length) :: s.cur.claimed } })

/-! ### Row drains (R58, R59, R147, R192) -/

/-- The column sum of a row: 128 products, one rounding each, from +0 (R58). -/
def dotCol (f : Fmt) : List Nat → List (BitVec 20) → FV → Ev → FV × Ev
  | a :: as, w :: ws, p, e =>
    let r := FV.fma .rne false false (FV.dec f a) (FV.dec .w12 w.toNat) p
    let d := deliver .fp32 .rne false r.1
    dotCol f as ws (FV.dec .fp32 d.1) (e.or (r.2.or d.2))
  | a :: as, [], p, e =>
    -- a missing weight is +0
    let r := FV.fma .rne false false (FV.dec f a) (.fin false 0 0) p
    let d := deliver .fp32 .rne false r.1
    dotCol f as [] (FV.dec .fp32 d.1) (e.or (r.2.or d.2))
  | [], _, p, e => (p, e)

/-- The FP32 result of a column in SET or ADD mode, with INVALID and OVERFLOW (R58, R59). -/
def drainVal (f : Fmt) (add : Bool) (acts : List Nat) (col : List (BitVec 20)) (old : Nat) : Nat × Ev :=
  let p := dotCol f acts col (.fin false 0 0) {}
  let b := (deliver .fp32 .rne false p.1).1
  if add then
    let r := fAdd .fp32 .rne old b
    (r.1, { inv := p.2.inv || r.2.inv, ovf := p.2.ovf || r.2.ovf })
  else (b, { inv := p.2.inv, ovf := p.2.ovf })

/-- What row m writes at a position: nothing outside lanes (m mod 8) × 128 + n of the enabled quadrants (R147). A result that yields to a
higher slot of the bundle still sets its NANB bit and logs its events: the model's choice (log 21). -/
def MMulOp.rowWrite (o : MMulOp) (m pos : Nat) (l : Lane) : LaneW × Ev × Bool :=
  let q := pos / 1024
  let n := pos % 128
  if o.qm.getLsbD q && pos % 1024 / 128 == m % 8 then
    let ps := o.cSl.getD (m / 8) []
    let acts := (((o.latched.getD m []).find? (·.1 == q)).map (·.2)).getD []
    let col := ((((o.planes.find? (·.1 == q)).map (·.2)).getD []).getD n [])
    let v := drainVal (ATy.fmt o.aty) o.add acts col (l.rd ps)
    let w := putSlices ps v.1
    ({ w with m := w.m &&& ~~~(o.clip.getD pos 0) }, v.2, (FV.dec .fp32 v.1).isNan)
  else ({}, {}, false)

/-- No earlier MMUL of the list streams through one of its quadrants: the last row of that one entered before the first of this one (R187), so
each of its rows drains before (R185, R188). Rows m and m + 512 share ACC slices, so it is all of them that row m waits for. -/
def mmulFree (l : List MMulOp) (idx : Nat) : Bool :=
  (l.take idx).all fun e =>
    match l[idx]? with
    | some o => e.qm &&& o.qm == 0
    | none => false

/-- The rows from m on after an MMUL that consumed an error: undefined values (R382; log 7). -/
def MMulOp.badWrite (o : MMulOp) (m stamp pos : Nat) : LaneW :=
  if o.qm.getLsbD (pos / 1024) then
    let w : LaneW := ((upto ((o.rows + 7) / 8)).filter fun g => m ≤ 8 * g + pos % 1024 / 128 && 8 * g + pos % 1024 / 128 < o.rows).foldl
      (fun (w : LaneW) g =>
        let u := putSlices (o.cSl.getD g []) (Config.freeAcc stamp (pos * 512 + g)).toNat
        { w with m := w.m ||| u.m, v := (w.v &&& ~~~u.m) ||| (u.v &&& u.m) }) {}
    { w with m := w.m &&& ~~~(o.clip.getD pos 0) }
  else {}

/-- The errors that row m of an MMUL meets: its bad planes, and the bad slices of that row (R382, R391). -/
def State.rowErrs (s : State) (d : Nat) (o : MMulOp) (m : Nat) : List (Nat × ErrIn) :=
  o.bad.map (s.planeErr d true o.bsn m) ++ ((o.hurt.filter (·.1 == m)).map fun e => s.sliceErr d true o.bsn m e.2)

/-- An MMUL consumes errors at its next row: what the rows would hold is undefined, and the errors are consumed (R382). -/
def State.mmulError (s : State) (d idx : Nat) (o : MMulOp) (es : List (Nat × ErrIn)) : State :=
  let y := s.die d
  let lanes := y.regs.lanes.mapIdx fun pos l => l.apply (o.badWrite o.next s.stepNo pos)
  let y1 := { y with regs := { y.regs with lanes := lanes }, mmuls := y.mmuls.eraseIdx idx }
  match s.driver d with
  | some c =>
    (s.setDie d y1).consumeAll c [d] ((es.head?.map (·.1)).getD 0) es o.bsn (o.liveIn (s.segEntry d))
  | none => s.setDie d y1

/-- What the MMUL's next drain reads is checked first: bad planes are reloaded and bad slices repaired where that can be, and noted where
not (R375, R380, R382). The rows that have entered by then are latched (R185). -/
def State.drainReads (s : State) (d idx : Nat) (o : MMulOp) : State × MMulOp :=
  let y := s.die d
  let o1 := o.latch y.regs.lanes (ATy.entry o.aty o.next + 132) o.rows
  let met := o.aHurt y.parity o.latched.length (o1.latched.length - o.latched.length) ++ o.cHurt y.parity o.next
  let fixed := o.bad.filter fun q => y.reloads (o.fill q)
  let o2 := { o1 with bad := o.bad.filter fun q => !fixed.contains q, hurt := o.hurt ++ met.filter fun e => !y.repairable e.2 }
  let y1 := { y with
    mmuls := y.mmuls.set idx o2
    arrs := y.arrs.mapIdx fun q r => if fixed.contains q then goodPlane (o.fill q) r else r }
  let s1 := (s.setDie d y1).logErrs (fixed.map (s.planeErr d false 0 0))
  (s1.repairAll d ((met.filter fun e => y.repairable e.2).map (·.2)).eraseDups, o2)

/-- The next stream row of an MMUL drains into the lanes (R147, R185). -/
def State.drainRow (s : State) (d idx : Nat) (o : MMulOp) : State :=
  let y := s.die d
  let m := o.next
  let ws := y.regs.lanes.mapIdx fun pos l => o.rowWrite m pos l
  let evs := quadEvs (ws.map fun w => (w.1, w.2.1))
  let nan (q : Nat) : Bool := ((ws.drop (1024 * q)).take 1024).any (·.2.2)
  let bit := (o.cSl.getD (m / 8) []).headD 0 / 8
  let arrs := y.arrs.mapIdx fun q r => if nan q then { r with nanb := r.nanb ||| BitVec.ofNat 64 (2 ^ bit) } else r
  let o1 := { o with next := m + 1 }
  let last := o1.rows ≤ o1.next
  let y1 := { (if last then y.endTok o.bsn 3 o.tout else y) with
    regs := { y.regs with lanes := applyLanes y.regs.lanes (ws.map (·.1)) }
    arrs := arrs
    parity := clearParity y.parity (ws.map (·.1))
    felogs := addEvs y.felogs o.bsn o.addr 3 evs
    mmuls := if last then y.mmuls.eraseIdx idx else y.mmuls.set idx o1 }
  (s.setDie d y1).countDie d 0x08 (quadsOf o.qm).length

/-- A stream row of MMUL number idx of a die drains (R147). -/
def execMmulRowDrain (die idx : Nat) (s : State) : Host.Outcome State Fault Refusal :=
  .next (match (s.die die).mmuls[idx]? with
    | some o =>
      if !mmulFree (s.die die).mmuls idx then s
      else
        let r := s.drainReads die idx o
        let es := r.1.rowErrs die r.2 r.2.next
        if es.isEmpty then r.1.drainRow die idx r.2 else r.1.mmulError die idx r.2 es
    | none => s)

end Sys2Proof.Machine
end

