-- ==== Sys2Proof/Machine/Scalar.lean ====
section
/-! DEFINITION. The S slot's register instructions: integers, immediates, compares, predicates and FP32 (R96 to R110). Each
reads the values before its bundle (R70) and writes one register or predicate. -/

namespace Sys2Proof.Machine

/-! ### Shared forms -/

/-- A result written to a register. -/
def putX (s : State) (xd : Reg) (v : W64) : Host.Outcome State Fault Refusal := .next (s.setX xd v)
/-- A result written to a predicate. -/
def putQ (s : State) (qd : QIdx) (v : Bool) : Host.Outcome State Fault Refusal := .next (s.setQ qd v)

/-- A shift by the whole count: at or above the width it gives zero (R36, R100). -/
def shlW (a : W64) (n : Nat) : W64 := if 64 ≤ n then 0 else a <<< n
def shrW (a : W64) (n : Nat) : W64 := if 64 ≤ n then 0 else a >>> n
/-- An arithmetic shift at or above the width gives copies of the sign bit (R36, R100). -/
def sraW (a : W64) (n : Nat) : W64 := a.sshiftRight (if 64 ≤ n then 63 else n)

/-- Leading zero bits among the low n bits of a number (R98). -/
def clzN (v : Nat) : Nat → Nat
  | 0 => 0
  | n + 1 => if v.testBit n then 0 else 1 + clzN v n

/-- One bits among the low n bits of a number (R98). -/
def popN (v : Nat) : Nat → Nat
  | 0 => 0
  | n + 1 => (if v.testBit n then 1 else 0) + popN v n

/-- The sign extension of a 32-bit immediate (R101). -/
def sext32 (i : BitVec 32) : W64 := i.signExtend 64

/-- The FP32 value of a register: bits 31:0 (R96). -/
def f32 (v : W64) : Nat := v.toNat % 2 ^ 32

/-- The rounding mode of a field at this bundle's issue (R44, R46). -/
def State.mode (s : State) (r : Rnd) : RM := Rnd.mode r (RM.ofBits (s.cur.rm0.getD s.cx.rm))

/-! ### Integer operations on registers (R98 to R100) -/

def execAdd (xd xa xb : Reg) (s : State) : Host.Outcome State Fault Refusal := putX s xd (s.x xa + s.x xb)
def execSub (xd xa xb : Reg) (s : State) : Host.Outcome State Fault Refusal := putX s xd (s.x xa - s.x xb)
def execMul (xd xa xb : Reg) (s : State) : Host.Outcome State Fault Refusal := putX s xd (s.x xa * s.x xb)
/-- Bits 127:64 of the signed product. -/
def execMulh (xd xa xb : Reg) (s : State) : Host.Outcome State Fault Refusal :=
  putX s xd (BitVec.ofInt 64 ((s.x xa).toInt * (s.x xb).toInt / 2 ^ 64))
/-- Bits 127:64 of the unsigned product. -/
def execMulhn (xd xa xb : Reg) (s : State) : Host.Outcome State Fault Refusal :=
  putX s xd (w64 ((s.x xa).toNat * (s.x xb).toNat / 2 ^ 64))
/-- Signed quotient; a zero divisor gives all ones (R99). -/
def execDiv (xd xa xb : Reg) (s : State) : Host.Outcome State Fault Refusal :=
  putX s xd (w64 (intDiv true 64 (s.x xa).toNat (s.x xb).toNat).1)
def execDivn (xd xa xb : Reg) (s : State) : Host.Outcome State Fault Refusal :=
  putX s xd (w64 (intDiv false 64 (s.x xa).toNat (s.x xb).toNat).1)
/-- Signed remainder; a zero divisor gives the dividend (R99). -/
def execRem (xd xa xb : Reg) (s : State) : Host.Outcome State Fault Refusal :=
  putX s xd (w64 (intRem true 64 (s.x xa).toNat (s.x xb).toNat))
def execRemn (xd xa xb : Reg) (s : State) : Host.Outcome State Fault Refusal :=
  putX s xd (w64 (intRem false 64 (s.x xa).toNat (s.x xb).toNat))
def execAnd (xd xa xb : Reg) (s : State) : Host.Outcome State Fault Refusal := putX s xd (s.x xa &&& s.x xb)
def execOr (xd xa xb : Reg) (s : State) : Host.Outcome State Fault Refusal := putX s xd (s.x xa ||| s.x xb)
def execXor (xd xa xb : Reg) (s : State) : Host.Outcome State Fault Refusal := putX s xd (s.x xa ^^^ s.x xb)
def execShl (xd xa xb : Reg) (s : State) : Host.Outcome State Fault Refusal := putX s xd (shlW (s.x xa) (s.x xb).toNat)
def execShr (xd xa xb : Reg) (s : State) : Host.Outcome State Fault Refusal := putX s xd (shrW (s.x xa) (s.x xb).toNat)
def execSra (xd xa xb : Reg) (s : State) : Host.Outcome State Fault Refusal := putX s xd (sraW (s.x xa) (s.x xb).toNat)
def execMin (xd xa xb : Reg) (s : State) : Host.Outcome State Fault Refusal :=
  putX s xd (if (s.x xa).slt (s.x xb) then s.x xa else s.x xb)
def execMax (xd xa xb : Reg) (s : State) : Host.Outcome State Fault Refusal :=
  putX s xd (if (s.x xa).slt (s.x xb) then s.x xb else s.x xa)
def execMinn (xd xa xb : Reg) (s : State) : Host.Outcome State Fault Refusal :=
  putX s xd (if (s.x xa).ult (s.x xb) then s.x xa else s.x xb)
def execMaxn (xd xa xb : Reg) (s : State) : Host.Outcome State Fault Refusal :=
  putX s xd (if (s.x xa).ult (s.x xb) then s.x xb else s.x xa)
def execClz (xd xa : Reg) (s : State) : Host.Outcome State Fault Refusal := putX s xd (w64 (clzN (s.x xa).toNat 64))
def execPopc (xd xa : Reg) (s : State) : Host.Outcome State Fault Refusal := putX s xd (w64 (popN (s.x xa).toNat 64))

/-! ### Immediates (R101 to R103) -/

def execAddi (xd xa : Reg) (imm : BitVec 32) (s : State) : Host.Outcome State Fault Refusal :=
  putX s xd (s.x xa + sext32 imm)
def execAndi (xd xa : Reg) (imm : BitVec 32) (s : State) : Host.Outcome State Fault Refusal :=
  putX s xd (s.x xa &&& sext32 imm)
def execOri (xd xa : Reg) (imm : BitVec 32) (s : State) : Host.Outcome State Fault Refusal :=
  putX s xd (s.x xa ||| sext32 imm)
def execXori (xd xa : Reg) (imm : BitVec 32) (s : State) : Host.Outcome State Fault Refusal :=
  putX s xd (s.x xa ^^^ sext32 imm)
/-- The count is the immediate read as unsigned (R102). -/
def execShiShl (xd xa : Reg) (imm : BitVec 32) (s : State) : Host.Outcome State Fault Refusal :=
  putX s xd (shlW (s.x xa) imm.toNat)
def execShiShr (xd xa : Reg) (imm : BitVec 32) (s : State) : Host.Outcome State Fault Refusal :=
  putX s xd (shrW (s.x xa) imm.toNat)
def execShiSra (xd xa : Reg) (imm : BitVec 32) (s : State) : Host.Outcome State Fault Refusal :=
  putX s xd (sraW (s.x xa) imm.toNat)
/-- The 50-bit immediate, sign-extended (R103). -/
def execLi (xd : Reg) (imm : BitVec 50) (s : State) : Host.Outcome State Fault Refusal := putX s xd (imm.signExtend 64)
/-- Replaces bits 63:32 and keeps bits 31:0 (R103). -/
def execLih (xd : Reg) (imm : BitVec 32) (s : State) : Host.Outcome State Fault Refusal :=
  putX s xd (w64 (imm.toNat * 2 ^ 32 + (s.x xd).toNat % 2 ^ 32))

/-! ### Compares and predicates (R104 to R107) -/

def execCmp (qd : QIdx) (c : Cond) (xa xb : Reg) (s : State) : Host.Outcome State Fault Refusal :=
  putQ s qd (Cond.holds c (s.x xa) (s.x xb))
def execCmpi (qd : QIdx) (c : Cond) (xa : Reg) (imm : BitVec 32) (s : State) : Host.Outcome State Fault Refusal :=
  putQ s qd (Cond.holds c (s.x xa) (sext32 imm))
def execSel (xd : Reg) (q : QIdx) (neg : Bool) (xa xb : Reg) (s : State) : Host.Outcome State Fault Refusal :=
  putX s xd (if s.q q != neg then s.x xa else s.x xb)
def execMovqGet (xd : Reg) (qa : QIdx) (s : State) : Host.Outcome State Fault Refusal := putX s xd (if s.q qa then 1 else 0)
def execMovqSet (qd : QIdx) (xa : Reg) (s : State) : Host.Outcome State Fault Refusal := putQ s qd (s.x xa != 0)

/-- q7 to q0 as bits 7:0, q0 reading as 1 (R106). -/
def State.qWord (s : State) : Nat :=
  (List.range 8).foldl (fun n i => n + (if s.q (BitVec.ofNat 3 i) then 2 ^ i else 0)) 0

def execMovqGetall (xd : Reg) (s : State) : Host.Outcome State Fault Refusal := putX s xd (w64 s.qWord)

/-- q1 to q7 take bits 7:1 of a word (R106). -/
def setQs (s : State) (v : W64) : State :=
  [1, 2, 3, 4, 5, 6, 7].foldl (fun t i => t.setQ (BitVec.ofNat 3 i) (v.getLsbD i)) s

def execMovqSetall (xa : Reg) (s : State) : Host.Outcome State Fault Refusal := .next (setQs s (s.x xa))
def execQop (f : QFn) (qd qa qb : QIdx) (s : State) : Host.Outcome State Fault Refusal :=
  putQ s qd (QFn.app f (s.q qa) (s.q qb))

/-! ### FP32 (R108 to R110); the S slot logs nothing (R61) -/

def execFadd (rm : Rnd) (xd xa xb : Reg) (s : State) : Host.Outcome State Fault Refusal :=
  putX s xd (w64 (fAdd .fp32 (s.mode rm) (f32 (s.x xa)) (f32 (s.x xb))).1)
def execFsub (rm : Rnd) (xd xa xb : Reg) (s : State) : Host.Outcome State Fault Refusal :=
  putX s xd (w64 (fSub .fp32 (s.mode rm) (f32 (s.x xa)) (f32 (s.x xb))).1)
def execFmul (rm : Rnd) (xd xa xb : Reg) (s : State) : Host.Outcome State Fault Refusal :=
  putX s xd (w64 (fMul .fp32 (s.mode rm) (f32 (s.x xa)) (f32 (s.x xb))).1)
def execFfma (sg : FmaSign) (rm : Rnd) (xd xa xb xc : Reg) (s : State) : Host.Outcome State Fault Refusal :=
  putX s xd (w64 (fFma .fp32 (s.mode rm) sg.negP sg.negC (f32 (s.x xa)) (f32 (s.x xb)) (f32 (s.x xc))).1)
def execFcmp (r : FRel) (qd : QIdx) (xa xb : Reg) (s : State) : Host.Outcome State Fault Refusal :=
  putQ s qd (fRel .fp32 (FRel.rel r) (f32 (s.x xa)) (f32 (s.x xb)))

/-- The result of FCVT in XD (R51, R110). -/
def fcvtVal (k : FCvt) (sat : Bool) (m : RM) (a : W64) : W64 :=
  match k with
  | .s64fp32 => w64 (fToInt .fp32 m true 64 (f32 a)).1
  | .n64fp32 => w64 (fToInt .fp32 m false 64 (f32 a)).1
  | .s32fp32 => (BitVec.ofNat 32 (fToInt .fp32 m true 32 (f32 a)).1).signExtend 64
  | .n32fp32 => w64 (fToInt .fp32 m false 32 (f32 a)).1
  | .fp32s64 => w64 (intToF .fp32 m sat true 64 a.toNat).1
  | .fp32n64 => w64 (intToF .fp32 m sat false 64 a.toNat).1
  | .bf16fp32 => w64 (fToF .fp32 .bf16 m sat (f32 a)).1
  | .fp16fp32 => w64 (fToF .fp32 .fp16 m sat (f32 a)).1
  | .fp32bf16 => w64 (fToF .bf16 .fp32 m sat (a.toNat % 2 ^ 16)).1
  | .fp32fp16 => w64 (fToF .fp16 .fp32 m sat (a.toNat % 2 ^ 16)).1

def execFcvt (k : FCvt) (sat : Bool) (rm : Rnd) (xd xa : Reg) (s : State) : Host.Outcome State Fault Refusal :=
  putX s xd (fcvtVal k sat (s.mode rm) (s.x xa))

end Sys2Proof.Machine
end

