-- ==== Sys2Proof/Machine/ScalarMem.lean ====
section
/-! DEFINITION. The S slot's memory and control instructions (R111 to R120, R23 to R26, R30): SLM accesses, global accesses
through the context's port, atomics, transfers, hardware loops and EXIT; and the return of a global load (R115). -/

namespace Sys2Proof.Machine

/-! ### SLM (R11, R112) -/

/-- The address XA + sext(IMM) (R111). -/
def State.ea (s : State) (xa : Reg) (imm : BitVec 32) : W64 := s.x xa + sext32 imm

/-- The SLM cause of an access, in the order of R29: SLM_ALIGN, SLM_RANGE, SLM_RO (R11, R112). -/
def State.slmCause (s : State) (a : W64) (n : Nat) (store : Bool) : Option Trap :=
  if a.toNat % n != 0 then some { cause := 0x0005 }
  else if 2 ^ 18 ≤ a.toNat || s.slmSize < a.toNat + n then some { cause := 0x0006 }
  else if store && a.toNat < 64 then some { cause := 0x0007 }
  else none

/-- Whether an SLM access of a speculative run touches LAUNCHID or a don't-care argument word (R14, R309). -/
def Ctx.specSlm (x : Ctx) (a n : Nat) : Bool :=
  match x.spec with
  | none => false
  | some r =>
    (a < 0x40 && 0x38 < a + n) ||
      (bitsOf r.dontcare).any fun i => a < 0x40 + 4 * i + 4 && 0x40 + 4 * i < a + n

/-- A segment has closed and has not committed: stores, atomics and the operations of R385 wait (R384). -/
def Ctx.commitWaits (x : Ctx) : Bool := x.seg.closing.isSome

/-- A load's value from n bytes, sign-extended or zero-extended (R111). -/
def extend (sz : MSize) (sx : Bool) (v : Nat) : W64 :=
  let n := 8 * sz.bytes
  if sx then BitVec.ofInt 64 (intVal true n v) else w64 (v % 2 ^ n)

def execLds (sz : MSize) (sx : Bool) (xd xa : Reg) (imm : BitVec 32) (s : State) : Host.Outcome State Fault Refusal :=
  let a := s.ea xa imm
  match s.slmCause a sz.bytes false with
  | some t => .next (s.takeTrap t)
  | none =>
    if s.cx.specSlm a.toNat sz.bytes then .next s.stall
    else .next (s.setX xd (extend sz sx (s.cx.slmRd a.toNat sz.bytes)))

def execSts (sz : MSize) (xs xa : Reg) (imm : BitVec 32) (s : State) : Host.Outcome State Fault Refusal :=
  let a := s.ea xa imm
  match s.slmCause a sz.bytes true with
  | some t => .next (s.takeTrap t)
  | none =>
    if s.cx.specSlm a.toNat sz.bytes || s.cx.commitWaits then .next s.stall
    else .next (s.updCx fun x => { x with slm := slmWr x.slm a.toNat sz.bytes (s.x xs).toNat })

/-! ### Global accesses (R113 to R116) -/

/-- The checks of a global access at step 3, and its translation: GLOBAL_RANGE, GLOBAL_ALIGN, GLOBAL_FAULT in this order
(R113, R121). `bell`: not a doorbell store, so the doorbell window is reserved to it (R195). -/
def State.gCheck (s : State) (k : AccK) (bell : Bool) (a : W64) (n : Nat) : Except Trap (Nat × TlbE) :=
  let d : VA := a.setWidth 56
  if 2 ^ 56 ≤ a.toNat then .error { cause := 0x0008, data := d }
  else if a.toNat % n != 0 then .error { cause := 0x0009, data := d }
  else match s.translate s.cx.tlb (s.ctxXlat s.cur.ctx) k bell a.toNat with
    | .error w => .error { cause := 0x000A, detail := w, data := d }
    | .ok r => .ok r

/-- The sequencer's translation cache takes the leaf of an access (R364). -/
def State.cacheLeaf (s : State) (e : TlbE) : State := s.updCx fun x => { x with tlb := tlbAdd s.xinvBusy x.tlb e }

def SOp.isStore : SOp → Bool
  | .store _ => true
  | _ => false

/-- Whether the port takes no more of this kind: 16 loads and atomics, 32 stores (R115). -/
def Ctx.portFull (x : Ctx) (store : Bool) : Bool :=
  (if store then 32 else 16) ≤ (x.port.filter fun a => a.op.isStore == store).length

/-- A global access enters the port, with the translation found at step 3 (R113, R115). -/
def State.pushPort (s : State) (a : W64) (pa n : Nat) (dev : Bool) (op : SOp) (e : TlbE) : State :=
  let acc : SAcc := { bsn := s.cx.bsn, va := a.toNat, pa := pa, size := n, dev := dev, op := op }
  let s1 := (s.cacheLeaf e).updCx fun x => { x with port := x.port ++ [acc] }
  match op.dest with
  | some xd => s1.pendX xd
  | none => s1

def execLdg (sz : MSize) (sx dev : Bool) (xd xa : Reg) (imm : BitVec 32) (s : State) : Host.Outcome State Fault Refusal :=
  let a := s.ea xa imm
  match s.gCheck .load false a sz.bytes with
  | .error t => .next (s.takeTrap t)
  | .ok (pa, e) =>
    if s.cx.isSpec && isHost pa then .next (s.discard s.cur.ctx 62)
    else if s.cx.portFull false then .next s.stall
    else .next (s.pushPort a pa sz.bytes dev (.load sx xd) e)

def execStg (sz : MSize) (dev : Bool) (xs xa : Reg) (imm : BitVec 32) (s : State) : Host.Outcome State Fault Refusal :=
  let a := s.ea xa imm
  match s.gCheck .store false a sz.bytes with
  | .error t => .next (s.takeTrap t)
  | .ok (pa, e) =>
    if (s.cx.isSpec && (isHost pa || isBell pa)) || s.cx.commitWaits || s.cx.portFull true then .next s.stall
    else .next ((s.pushPort a pa sz.bytes dev (.store (s.x xs)) e).unrepeatable s.cur.ctx)

/-- The bytes of an AMOG or VAMO operand. -/
def amoBytes (four : Bool) : Nat := if four then 4 else 8

/-- The new value of an atomic at its size (R114). -/
def amoNew (op : AOp) (n old b c : Nat) : Nat :=
  let w := 8 * n
  let m := 2 ^ w
  let o := old % m
  let y := b % m
  let sg (v : Nat) : Int := intVal true w v
  match op with
  | .swap => y
  | .add => (o + y) % m
  | .and => o &&& y
  | .or => o ||| y
  | .xor => o ^^^ y
  | .min => if sg y < sg o then y else o
  | .max => if sg o < sg y then y else o
  | .minn => if y < o then y else o
  | .maxn => if o < y then y else o
  | .cas => if o = c % m then y else o

def execAmog (op : AOp) (four : Bool) (xd xa xb xc : Reg) (s : State) : Host.Outcome State Fault Refusal :=
  let a := s.x xa
  match s.gCheck .atomic true a (amoBytes four) with
  | .error t => .next (s.takeTrap t)
  | .ok (pa, e) =>
    if s.cx.isSpec || s.cx.commitWaits || s.cx.portFull false then .next s.stall
    else .next ((s.pushPort a pa (amoBytes four) true (.amo op xd (s.x xb) (s.x xc)) e).unrepeatable s.cur.ctx)

/-! ### The Vitrine (R306 to R308) -/

/-- The Vitrine capacity of a die in 64-byte lines (R306). -/
def State.vitLines (s : State) (j : BitVec 16) : Nat :=
  (s.job j).vitcap.toNat * 0x400000 / 64 / (if s.unprot then 2 else 1)

/-- The byte of a speculative run's own store, if it has stored there (R307). -/
def Die.vitByte (y : Die) (a : Nat) : Option Byte :=
  match y.vitrine.find? (·.line == a / 64) with
  | some l => if l.mask.getLsbD (a % 64) then some (BitVec.ofNat 8 (bf l.data (8 * (a % 64) + 7) (8 * (a % 64)))) else none
  | none => none

/-- n bytes as a speculative run of a die sees them (R307). -/
def State.vitRd (s : State) (d a : Nat) : Nat → Nat
  | 0 => 0
  | n + 1 => (((s.die d).vitByte a).getD (s.homeByte a)).toNat + 256 * s.vitRd d (a + 1) n

/-- The run's die holds the address in a Vitrine line with an uncorrectable error (R375, R381). -/
def State.vitBad (s : State) (d a : Nat) : Bool := (s.die d).vbad.contains (a / 64)

/-- n bytes of a word at byte position p replaced by those of v. -/
def putBytes {w : Nat} (x : BitVec w) (p n v : Nat) : BitVec w :=
  let m : BitVec w := BitVec.ofNat w ((2 ^ (8 * n) - 1) * 2 ^ (8 * p))
  (x &&& ~~~m) ||| BitVec.ofNat w (v % 2 ^ (8 * n) * 2 ^ (8 * p))

/-- Stores n bytes, which lie in one line, into the Vitrine of a die; none on overflow (R306, R308). A new line takes the next
place in the system way, and a place in a block that holds spilled slices is an overflow (R207); `ovl`: the Vitrine overlaps the
spill area. -/
def Die.vitWr (y : Die) (cap : Nat) (ovl : Bool) (a n v : Nat) : Option Die :=
  let p := a % 64
  let mk (l : VLine) : VLine :=
    { l with data := putBytes l.data p n v, mask := l.mask ||| BitVec.ofNat 64 ((2 ^ n - 1) * 2 ^ p) }
  if y.vitrine.any (·.line == a / 64) then
    some { y with vitrine := y.vitrine.map fun l => if l.line == a / 64 then mk l else l }
  else if cap ≤ y.vitrine.length || ovl &&
      y.spill.any (fun e => Config.spillBlock e.1 == Config.vitBlock y.vitrine.length) then none
  else some { y with vitrine := y.vitrine ++ [mk ⟨a / 64, 0, 0⟩] }

/-- A store of a speculative run on context c whose Vitrine is die d's; an overflow discards the run (R307, R308). -/
def State.vitStore (s : State) (c d a n v : Nat) : State :=
  let j := lJob (s.ctx c).lrec
  match (s.die d).vitWr (s.vitLines j) (2 ≤ (s.job j).vitcap.toNat) a n v with
  | some y => s.setDie d y
  | none => s.discard c 61

/-! ### Performing the port's accesses (R115, R251) -/

/-- Two accesses share a byte. -/
def overlap (a n b m : Nat) : Bool := a < b + m && b < a + n

/-- An access of the port may be performed: no earlier one overlaps it (R115, R252). -/
def portFree (l : List SAcc) (idx : Nat) : Bool :=
  match l[idx]? with
  | some a => (l.take idx).all fun b => !overlap a.pa a.size b.pa b.size
  | none => false

/-- What a load of a context reads: its own Vitrine lines in a speculative run, else home (R307, R250). -/
def State.ctxRd (s : State) (c a n : Nat) : Nat :=
  if (s.ctx c).isSpec then s.vitRd (lPart (s.ctx c).lrec) a n else s.homeRd a n

/-- A store of a context: into its Vitrine in a speculative run, else at home (R307, R251). -/
def State.ctxWr (s : State) (c a n v : Nat) : State :=
  if (s.ctx c).isSpec then s.vitStore c (lPart (s.ctx c).lrec) a n v else s.devWr (lJob (s.ctx c).lrec) a n v

/-- Takes an access out of a context's port. -/
def State.dropPort (s : State) (c idx : Nat) : State := s.updCtx c fun x => { x with port := x.port.eraseIdx idx }

/-- A sequencer's read of a poisoned line for the bundle of a BSN: every die of its issue set is faulted (R381, R386, R392). -/
def State.seqPoison (s : State) (c pa : Nat) (bsn : BitVec 48) : State :=
  s.consume c (s.issueSet c) (memBank pa) { uc := true, kind := 5, w1 := w64 pa, w2 := Config.syndrome s.stepNo } bsn false

/-- A load of a speculative run meets a Vitrine line with an error: the bank of the die's system way records it (R381, R390). -/
def State.seqVitrine (s : State) (c pa : Nat) (bsn : BitVec 48) : State :=
  let b := s.dieBank (lPart (s.ctx c).lrec) 4
  s.consume c (s.issueSet c) b { uc := true, kind := 2, w1 := w64 (pa / 64 * 64), w2 := Config.syndrome s.stepNo } bsn false

/-- A global load or atomic of a context is performed and its register written (R111, R114, R115). An access that would read
poison is consumed instead, and the register is not written (R381). -/
def State.performLoad (s : State) (c idx : Nat) (a : SAcc) : State :=
  match a.op with
  | .store _ => s
  | .load sx xd =>
    if s.poisonIn a.pa a.size then (s.dropPort c idx).seqPoison c a.pa a.bsn
    else if (s.ctx c).isSpec && s.vitBad (lPart (s.ctx c).lrec) a.pa then (s.dropPort c idx).seqVitrine c a.pa a.bsn
    else
      let v := s.ctxRd c a.pa a.size
      (s.dropPort c idx).deliverX c xd a.bsn (if sx then BitVec.ofInt 64 (intVal true (8 * a.size) v) else w64 v)
  | .amo op xd b k =>
    if s.poisonIn a.pa a.size then (s.dropPort c idx).seqPoison c a.pa a.bsn
    else
      let old := s.homeRd a.pa a.size
      ((s.dropPort c idx).homeWr a.pa a.size (amoNew op a.size old b.toNat k.toNat)).deliverX c xd a.bsn (w64 old)

/-- No earlier signal operation of the context to the same bytes is outstanding (R252). -/
def Ctx.sigFree (x : Ctx) (a : SAcc) : Bool :=
  x.gathers.all fun g =>
    match g.kind with
    | .sigadd _ _ _ pa _ => a.bsn < g.bsn || !overlap a.pa a.size pa 8
    | .sigst _ _ pa _ => a.bsn < g.bsn || !overlap a.pa a.size pa 8
    | _ => true

/-- The data of a global load or atomic return (R97, R115). -/
def execGlobalLoadReturn (ctx idx : Nat) (s : State) : Host.Outcome State Fault Refusal :=
  .next (match (s.ctx ctx).port[idx]? with
    | some a => if portFree (s.ctx ctx).port idx && (s.ctx ctx).sigFree a then s.performLoad ctx idx a else s
    | none => s)

/-- A posted store of a context is performed (R115, R251). -/
def State.performStore (s : State) (c idx : Nat) : State :=
  match (s.ctx c).port[idx]? with
  | some a =>
    match a.op with
    | .store v => if portFree (s.ctx c).port idx && (s.ctx c).sigFree a then (s.dropPort c idx).ctxWr c a.pa a.size v.toNat else s
    | _ => s
  | none => s

/-! ### Control transfer (R17, R23 to R26, R117 to R119) -/

/-- Pops the innermost loop entry while its range excludes the target, and then each enclosing one up to the first whose range includes it
(R26). R26 speaks of nested ranges; where a callee's loop stands above a caller's and includes the target, the entries below it stay,
whatever their ranges: the model's choice (log 21). -/
def popLoops (t : VA) : List LoopE → List LoopE
  | [] => []
  | e :: r => if e.s ≤ t && t ≤ e.e then e :: r else popLoops t r

/-- The next PC of the bundle (R17). -/
def State.setNpc (s : State) (t : VA) : State := { s with cur := { s.cur with npc := t, taken := true } }

/-- A taken transfer: the loops whose ranges exclude the target are popped (R26). -/
def State.jump (s : State) (t : VA) : State := (s.updCx fun x => { x with loops := popLoops t x.loops }).setNpc t

/-- PC + 64 × OFF (R117). -/
def State.relPc (s : State) (off : BitVec 30) : VA := s.cx.pc + (off.signExtend 56) * 64

/-- A register target: bits 55:0, misaligned if bits 5:0 are not zero (R17, R118). -/
def State.regTarget (s : State) (xa : Reg) : VA := (s.x xa).setWidth 56

/-- A transfer to a register target (R17, R118). -/
def State.regJump (s : State) (xa : Reg) (f : VA → State) : Host.Outcome State Fault Refusal :=
  if (s.regTarget xa).toNat % 64 != 0 then .next (s.takeTrap { cause := 0x0004 }) else .next (f (s.regTarget xa))

/-- The return address of a CALL (R118). -/
def State.link (s : State) : W64 := (s.cx.pc + 64).setWidth 64

def execBr (c : Cond) (xa xb : Reg) (off : BitVec 30) (s : State) : Host.Outcome State Fault Refusal :=
  .next (if Cond.holds c (s.x xa) (s.x xb) then s.jump (s.relPc off) else s)
def execBrq (q : QIdx) (neg : Bool) (off : BitVec 30) (s : State) : Host.Outcome State Fault Refusal :=
  .next (if s.q q != neg then s.jump (s.relPc off) else s)
def execCall (xd : Reg) (off : BitVec 30) (s : State) : Host.Outcome State Fault Refusal :=
  .next ((s.setX xd s.link).setNpc (s.relPc off))
def execCallR (xd xa : Reg) (s : State) : Host.Outcome State Fault Refusal :=
  s.regJump xa fun t => (s.setX xd s.link).setNpc t
def execJmp (off : BitVec 30) (s : State) : Host.Outcome State Fault Refusal := .next (s.jump (s.relPc off))
def execJmpR (xa : Reg) (s : State) : Host.Outcome State Fault Refusal := s.regJump xa s.jump
def execRet (xa : Reg) (s : State) : Host.Outcome State Fault Refusal := s.regJump xa s.jump

/-- LOOP (R23, R79, R119): the checks LOOP_MARK and LOOP_DEPTH, then the skip of the body or the push. An OFF below 1 names an end before
the body, wherever the bundle stands (R79). -/
def execLoop (xa : Reg) (off : BitVec 30) (s : State) : Host.Outcome State Fault Refusal :=
  let st : VA := s.cx.pc + 64
  let e := s.relPc off
  let n : BitVec 32 := (s.x xa).setWidth 32
  if off.toInt < 1 || e < st then .next (s.takeTrap { cause := 0x0003 })
  else if 4 ≤ s.cx.loops.length then .next (s.takeTrap { cause := 0x0011 })
  else if n = 0 then .next (s.setNpc (e + 64))
  else .next ((s.updCx fun x => { x with loops := ⟨n, st, e, 0⟩ :: x.loops }).setNpc st)

/-- EXIT ends issue: the loop stack empties, the user code is kept and the launch is EXITED (R30, R120). -/
def execExit (code : BitVec 16) (s : State) : Host.Outcome State Fault Refusal :=
  .next (s.updCx fun x => { x with lst := .exited, loops := [], ucode := code })

end Sys2Proof.Machine
end

