-- ==== Sys2Proof/Machine/FpFn.lean ====
section
/-! DEFINITION. The special functions RCP, SQRT, RSQ, EXP2, LOG2 and TANH, correctly rounded (R53). Irrational results
are computed to about 256 bits and rounded with a sticky bit (DEDUCED: log entry 6). -/

namespace Sys2Proof.Machine

/-- Integer square root by binary search over n bits: the largest r below 2^n with r² ≤ x. -/
def isqrtBits (x : Nat) : Nat → Nat → Nat
  | 0, r => r
  | n + 1, r =>
    let c := r + 2 ^ n
    if c * c ≤ x then isqrtBits x n c else isqrtBits x n r

def isqrt (x : Nat) : Nat := isqrtBits x (Nat.log2 x / 2 + 1) 0

/-- The square root of m × 2^e as a value with a sticky bit. -/
def sqrtVal (m : Nat) (e : Int) : FV :=
  -- an even exponent, and 400 more bits under the root
  let m1 := if e % 2 = 0 then m else 2 * m
  let e1 := if e % 2 = 0 then e else e - 1
  let x := m1 * 2 ^ 400
  let r := isqrt x
  .fin false (2 * r + (if r * r = x then 0 else 1)) ((e1 - 400) / 2 - 1)

/-- Fraction bits of the fixed-point series. -/
def fxBits : Nat := 256
/-- One in fixed point. -/
def fxOne : Nat := 2 ^ fxBits

/-- Sum of t^(2k+1) / (2k+1) for n terms from index k, p = t^(2k+1), t2 = t², in fixed point. -/
def atanhSeries (t2 : Nat) : Nat → Nat → Nat → Nat
  | 0, _, _ => 0
  | n + 1, k, p => p / (2 * k + 1) + atanhSeries t2 n (k + 1) (p * t2 / fxOne)

/-- 2 × atanh(t) for a fixed-point t at most 1/3: the natural logarithm of (1 + t) / (1 − t). -/
def twoAtanh (t : Nat) : Nat := 2 * atanhSeries (t * t / fxOne) 100 0 t

/-- ln 2 in fixed point: 2 × atanh(1/3). -/
def ln2 : Nat := twoAtanh (fxOne / 3)

/-- Sum of x^k / k! for n terms from index k, p = x^k / k!, in fixed point. -/
def expSeries (x : Nat) : Nat → Nat → Nat → Nat
  | 0, _, _ => 0
  | n + 1, k, p => p + expSeries x n (k + 1) (p * x / fxOne / (k + 1))

/-- e^x for a fixed-point x from 0 to 1. -/
def expFx (x : Nat) : Nat := expSeries x 100 0 fxOne

/-- An inexact positive fixed-point magnitude as a value with its sticky bit set. -/
def fxVal (neg : Bool) (v : Nat) : FV := .fin neg (2 * v + 1) (-((fxBits : Int) + 1))

/-- 1 + tiny or 1 − tiny, as a value whose rounding is that of any value so near to 1. -/
def nearOne (neg below : Bool) : FV := .fin neg (if below then 2 ^ 200 - 1 else 2 ^ 200 + 1) (-200)

/-- 2^x for a nonzero finite x = ±m × 2^e. -/
def exp2Val (s : Bool) (m : Nat) (e : Int) : FV :=
  let mag : Int := e + (Nat.log2 m : Int)
  if 12 < mag then .fin false 1 (if s then -2000 else 2000)
  else if mag < -40 then nearOne false s
  else
    -- the exponent is at least −64 − 24 here, so the fraction is exact in fixed point
    let v : Int := if 0 ≤ e + (fxBits : Int) then (m : Int) * 2 ^ (e + (fxBits : Int)).toNat else 0
    let x : Int := if s then -v else v
    let n : Int := x.fdiv (fxOne : Int)
    let fr : Nat := (x.fmod (fxOne : Int)).toNat
    if fr = 0 then .fin false 1 n
    else
      match fxVal false (expFx (fr * ln2 / fxOne)) with
      | .fin _ a g => .fin false a (g + n)
      | w => w

/-- log2 of a positive finite x = m × 2^e. -/
def log2Val (m : Nat) (e : Int) : FV :=
  let k := Nat.log2 m
  let top : Int := e + (k : Int)
  if m = 2 ^ k then (if top = 0 then .fin false 0 0 else .fin (decide (top < 0)) top.natAbs 0)
  else
    let t := (m - 2 ^ k) * fxOne / (m + 2 ^ k)
    let l : Nat := twoAtanh t * fxOne / ln2
    let v : Int := top * (fxOne : Int) + (l : Int)
    if v < 0 then fxVal true (v.natAbs - 1) else fxVal false v.natAbs

/-- tanh of a nonzero finite x = ±m × 2^e. -/
def tanhVal (s : Bool) (m : Nat) (e : Int) : FV :=
  let mag : Int := e + (Nat.log2 m : Int)
  if 6 ≤ mag then nearOne s true
  else if mag < -40 then .fin s (m * 2 ^ 200 - 1) (e - 200)
  else
    let y : Nat := 2 * (m * 2 ^ (e + (fxBits : Int)).toNat)
    let n := y / ln2
    let ex := expFx (y - n * ln2) * 2 ^ n
    fxVal s ((ex - fxOne) * fxOne / (ex + fxOne))

/-- The special functions by name. -/
inductive SFn where
  | rcp | sqrt | rsq | exp2 | log2 | tanh
  deriving DecidableEq, Repr

/-- The exact value of a special function, or enough of it to round, with its events (R48, R53). -/
def sfnVal (fn : SFn) (a : FV) : FV × Ev :=
  match fn, a with
  | _, .nan => (.nan, {})
  | .rcp, .inf s => (.fin s 0 0, {})
  | .rcp, .fin s m e => if m = 0 then (.inf s, { dz := true }) else FV.div (.fin false 1 0) (.fin s m e)
  | .sqrt, .inf s => if s then (.nan, { inv := true }) else (.inf false, {})
  | .sqrt, .fin s m e =>
    if m = 0 then (.fin s 0 0, {}) else if s then (.nan, { inv := true }) else (sqrtVal m e, {})
  | .rsq, .inf s => if s then (.nan, { inv := true }) else (.fin false 0 0, {})
  | .rsq, .fin s m e =>
    if m = 0 then (.inf s, { dz := true })
    else if s then (.nan, { inv := true })
    -- 1/√x = √(1/x): the reciprocal root of an exact power of four is exact, and every other is irrational
    else
      match sqrtVal m e with
      | .fin _ r g => FV.div (.fin false 1 0) (.fin false r g)
      | w => (w, {})
  | .exp2, .inf s => if s then (.fin false 0 0, {}) else (.inf false, {})
  | .exp2, .fin s m e => if m = 0 then (.fin false 1 0, {}) else (exp2Val s m e, {})
  | .log2, .inf s => if s then (.nan, { inv := true }) else (.inf false, {})
  | .log2, .fin s m e =>
    if m = 0 then (.inf true, { dz := true }) else if s then (.nan, { inv := true }) else (log2Val m e, {})
  | .tanh, .inf s => (.fin s 1 0, {})
  | .tanh, .fin s m e => if m = 0 then (.fin s 0 0, {}) else (tanhVal s m e, {})

/-- A special function on an encoding, rounded once (R53). -/
def fSpecial (fn : SFn) (f : Fmt) (mode : RM) (a : Nat) : Nat × Ev :=
  let r := sfnVal fn (FV.dec f a)
  let d := deliver f mode false r.1
  (d.1, r.2.or d.2)

end Sys2Proof.Machine
end

