-- ==== Sys2Proof/Machine/Vector.lean ====
section
/-! DEFINITION. The V0 and V1 slots: lane arithmetic, compares, conversions, special functions and predicate logic (R152 to
R161, R167 to R169), and the landing of a result (R136). -/

namespace Sys2Proof.Machine

/-! ### Shared forms -/

/-- A two-source operation. -/
def vec2 (a : V2) (s : State) (f : Nat → Nat → Nat × Ev) : Host.Outcome State Fault Refusal :=
  .next (s.vecOut a.pg a.ty a.vd fun pos l => f (s.val a.ty a.va pos l) (s.val a.ty a.vb pos l))

def vec1 (a : V1) (s : State) (f : Nat → Nat × Ev) : Host.Outcome State Fault Refusal :=
  .next (s.vecOut a.pg a.ty a.vd fun pos l => f (s.val a.ty a.va pos l))

def vec3 (a : V3) (s : State) (f : Nat → Nat → Nat → Nat × Ev) : Host.Outcome State Fault Refusal :=
  .next (s.vecOut a.pg a.ty a.vd fun pos l => f (s.val a.ty a.va pos l) (s.val a.ty a.vb pos l) (s.val a.ty a.vc pos l))

/-- A result without events. -/
def quiet (n : Nat) : Nat × Ev := (n, {})

/-- The encoding, or the canonical NaN for a NaN (R157, R160). -/
def canon (ty : ETy) (v : Nat) : Nat :=
  if ty.isF && (FV.dec (fmtOf ty) v).isNan then (fmtOf ty).nanBits else v

/-- The bits of an N or S operation modulo 2^w. -/
def iwrap (ty : ETy) (v : Int) : Nat × Ev := quiet (wrap ty.bits v)

/-- Signed or unsigned value of an encoding at a type (R34). -/
def tval (ty : ETy) (v : Nat) : Int := intVal ty.isS ty.bits v

/-! ### Arithmetic (R154 to R157) -/

def execVadd (a : V2) (s : State) : Host.Outcome State Fault Refusal :=
  vec2 a s fun x y => if a.ty.isF then fAdd (fmtOf a.ty) s.smode x y else iwrap a.ty (tval a.ty x + tval a.ty y)
def execVsub (a : V2) (s : State) : Host.Outcome State Fault Refusal :=
  vec2 a s fun x y => if a.ty.isF then fSub (fmtOf a.ty) s.smode x y else iwrap a.ty (tval a.ty x - tval a.ty y)
def execVmul (a : V2) (s : State) : Host.Outcome State Fault Refusal :=
  vec2 a s fun x y => if a.ty.isF then fMul (fmtOf a.ty) s.smode x y else iwrap a.ty (tval a.ty x * tval a.ty y)
/-- Bits 2w−1 : w of the product. -/
def execVmulh (a : V2) (s : State) : Host.Outcome State Fault Refusal :=
  vec2 a s fun x y => iwrap a.ty (tval a.ty x * tval a.ty y / (2 ^ a.ty.bits : Nat))
/-- A quotient as VD receives it: all ones in VD's width for a zero divisor (R35, R129). -/
def quotient (ty : ETy) (vd : Dst) (x y : Nat) : Nat × Ev :=
  let q := intDiv ty.isS ty.bits x y
  (if q.2.dz then 2 ^ vd.w.bits - 1 else outVal ty vd.w.bits q.1, q.2)

def execVdiv (a : V2) (s : State) : Host.Outcome State Fault Refusal :=
  if a.ty.isF then vec2 a s (fDiv (fmtOf a.ty) s.smode)
  else
    let ps := s.dsrc.physD a.vd
    let r := s.eachLane a.pg fun pos l =>
      let v := quotient a.ty a.vd (s.val a.ty a.va pos l) (s.val a.ty a.vb pos l)
      (putSlices ps v.1, v.2)
    .next (s.fly (sliceSet ps) 0 [] (quadEvs r) (r.map (·.1)))
def execVmin (a : V2) (s : State) : Host.Outcome State Fault Refusal :=
  vec2 a s fun x y => quiet (if a.ty.isF then fMin (fmtOf a.ty) x y else if tval a.ty x ≤ tval a.ty y then x else y)
def execVmax (a : V2) (s : State) : Host.Outcome State Fault Refusal :=
  vec2 a s fun x y => quiet (if a.ty.isF then fMax (fmtOf a.ty) x y else if tval a.ty x ≤ tval a.ty y then y else x)
/-- a × b + c. -/
def execVfma (a : V3) (s : State) : Host.Outcome State Fault Refusal :=
  vec3 a s fun x y z =>
    if a.ty.isF then fFma (fmtOf a.ty) s.smode false false x y z else iwrap a.ty (tval a.ty x * tval a.ty y + tval a.ty z)
/-- a × b − c. -/
def execVfms (a : V3) (s : State) : Host.Outcome State Fault Refusal :=
  vec3 a s fun x y z =>
    if a.ty.isF then fFma (fmtOf a.ty) s.smode false true x y z else iwrap a.ty (tval a.ty x * tval a.ty y - tval a.ty z)
/-- −(a × b) + c. -/
def execVfnma (a : V3) (s : State) : Host.Outcome State Fault Refusal :=
  vec3 a s fun x y z =>
    if a.ty.isF then fFma (fmtOf a.ty) s.smode true false x y z else iwrap a.ty (tval a.ty z - tval a.ty x * tval a.ty y)

/-- A saturated result at the narrower of the type's and VD's width, extended to the type (R155). -/
def saturate (ty : ETy) (vd : Dst) (v : Int) : Nat × Ev :=
  let c := clampInt ty.isS (min ty.bits vd.w.bits) v
  (wrap ty.bits c.1, { ovf := c.2 })

def execVadds (a : V2) (s : State) : Host.Outcome State Fault Refusal :=
  vec2 a s fun x y => saturate a.ty a.vd (tval a.ty x + tval a.ty y)
def execVsubs (a : V2) (s : State) : Host.Outcome State Fault Refusal :=
  vec2 a s fun x y => saturate a.ty a.vd (tval a.ty x - tval a.ty y)
/-- Clears the sign bit of an F value; the most negative S value stays (R156, R157). -/
def execVabs (a : V1) (s : State) : Host.Outcome State Fault Refusal :=
  vec1 a s fun x => if a.ty.isF then quiet (canon a.ty x % 2 ^ (a.ty.bits - 1)) else iwrap a.ty (tval a.ty x).natAbs
/-- Inverts the sign bit of an F value that is no NaN (R156, R157). -/
def execVneg (a : V1) (s : State) : Host.Outcome State Fault Refusal :=
  vec1 a s fun x =>
    if a.ty.isF then
      quiet (if (FV.dec (fmtOf a.ty) x).isNan then (fmtOf a.ty).nanBits else (x + 2 ^ (a.ty.bits - 1)) % 2 ^ a.ty.bits)
    else iwrap a.ty (-(tval a.ty x))
/-- A move: the encoding as it stands (R153). -/
def execVmov (a : V1) (s : State) : Host.Outcome State Fault Refusal := vec1 a s quiet
def execVand (a : V2) (s : State) : Host.Outcome State Fault Refusal := vec2 a s fun x y => quiet (x &&& y)
def execVor (a : V2) (s : State) : Host.Outcome State Fault Refusal := vec2 a s fun x y => quiet (x ||| y)
def execVxor (a : V2) (s : State) : Host.Outcome State Fault Refusal := vec2 a s fun x y => quiet (x ^^^ y)
def execVandn (a : V2) (s : State) : Host.Outcome State Fault Refusal :=
  vec2 a s fun x y => quiet (x &&& (2 ^ a.ty.bits - 1 - y))
/-- The count is b read as unsigned (R36, R156). -/
def execVshl (a : V2) (s : State) : Host.Outcome State Fault Refusal :=
  vec2 a s fun x y => quiet (if a.ty.bits ≤ y then 0 else x * 2 ^ y % 2 ^ a.ty.bits)
/-- Arithmetic for S, logical for N (R36, R154). -/
def execVshr (a : V2) (s : State) : Host.Outcome State Fault Refusal :=
  vec2 a s fun x y => iwrap a.ty (tval a.ty x / (2 ^ min y a.ty.bits : Nat))
def execVclz (a : V1) (s : State) : Host.Outcome State Fault Refusal := vec1 a s fun x => quiet (clzN x a.ty.bits)
def execVpopc (a : V1) (s : State) : Host.Outcome State Fault Refusal := vec1 a s fun x => quiet (popN x a.ty.bits)

/-! ### Compare, select, convert (R158 to R160) -/

/-- The relation of two values at a type (R158). -/
def vrel (ty : ETy) (r : VRel) (x y : Nat) : Bool :=
  if ty.isF then fRel (fmtOf ty) r x y
  else
    let u := tval ty x
    let v := tval ty y
    match r with
    | .eq => u == v
    | .ne => u != v
    | .lt => decide (u < v)
    | .le => decide (u ≤ v)
    | .gt => decide (v < u)
    | .ge => decide (v ≤ u)
    | .un => false

def execVcmp (a : VCmpA) (s : State) : Host.Outcome State Fault Refusal :=
  .next (s.predOut a.pg a.pd fun pos l => vrel a.ty a.rel (s.val a.ty a.va pos l) (s.val a.ty a.vb pos l))
/-- A move of a where pS is true in the lane and of b elsewhere (R159). -/
def execVsel (a : VSelA) (s : State) : Host.Outcome State Fault Refusal :=
  .next (s.vecOut a.pg a.ty a.vd fun pos l =>
    quiet (if s.dsrc.predAt a.ps l then s.val a.ty a.va pos l else s.val a.ty a.vb pos l))
def execVcvt (a : VCvtA) (s : State) : Host.Outcome State Fault Refusal :=
  .next (s.vecOut a.pg a.td a.vd fun pos l => convert a.ts a.td (Rnd.mode a.rnd s.smode) a.sat (s.val a.ts a.va pos l))

/-! ### Special functions (R53, R161) -/

def execVrcp (a : V1) (s : State) : Host.Outcome State Fault Refusal := vec1 a s (fSpecial .rcp (fmtOf a.ty) s.smode)
def execVsqrt (a : V1) (s : State) : Host.Outcome State Fault Refusal := vec1 a s (fSpecial .sqrt (fmtOf a.ty) s.smode)
def execVrsq (a : V1) (s : State) : Host.Outcome State Fault Refusal := vec1 a s (fSpecial .rsq (fmtOf a.ty) s.smode)
def execVexp2 (a : V1) (s : State) : Host.Outcome State Fault Refusal := vec1 a s (fSpecial .exp2 (fmtOf a.ty) s.smode)
def execVlog2 (a : V1) (s : State) : Host.Outcome State Fault Refusal := vec1 a s (fSpecial .log2 (fmtOf a.ty) s.smode)
def execVtanh (a : V1) (s : State) : Host.Outcome State Fault Refusal := vec1 a s (fSpecial .tanh (fmtOf a.ty) s.smode)

/-! ### Predicate logic (R167) -/

def execPand (a : P2) (s : State) : Host.Outcome State Fault Refusal :=
  .next (s.predOut a.pg a.pd fun _ l => s.dsrc.predAt a.pa l && s.dsrc.predAt a.pb l)
def execPor (a : P2) (s : State) : Host.Outcome State Fault Refusal :=
  .next (s.predOut a.pg a.pd fun _ l => s.dsrc.predAt a.pa l || s.dsrc.predAt a.pb l)
def execPxor (a : P2) (s : State) : Host.Outcome State Fault Refusal :=
  .next (s.predOut a.pg a.pd fun _ l => s.dsrc.predAt a.pa l != s.dsrc.predAt a.pb l)
def execPnot (a : P1) (s : State) : Host.Outcome State Fault Refusal :=
  .next (s.predOut a.pg a.pd fun _ l => !s.dsrc.predAt a.pa l)

/-! ### Long accumulators (R168, R169) -/

/-- The value of an element of a type. -/
def elemFV (ty : ETy) (v : Nat) : FV :=
  if ty.isF then FV.dec (fmtOf ty) v
  else
    let t := tval ty v
    .fin (decide (t < 0)) t.natAbs 0

/-- The LACC whose first slice has this name (R54, R76). -/
def State.lacc (s : State) (st : BitVec 9) (l : Lane) : Lacc := Lacc.ofBits (l.rd (s.dsrc.phys st.toNat 84))

/-- Writes all 84 slices of a LACC. -/
def State.laccOut (s : State) (pg : PIdx) (vd : BitVec 9) (f : Nat → Lane → Lacc) : State :=
  let ps := s.dsrc.phys vd.toNat 84
  let r := s.eachLane pg fun pos l => (putSlices ps (f pos l).bits, {})
  s.fly (sliceSet ps) 0 [] [] (r.map (·.1))

def execVladd (a : VLaddA) (s : State) : Host.Outcome State Fault Refusal :=
  .next (s.laccOut a.pg a.vd fun pos l =>
    match a.src with
    | .val ty o => (s.lacc a.va l).addF (elemFV ty (s.val ty o pos l))
    | .lacc st => (s.lacc a.va l).addL (s.lacc st l))
def execVlrnd (a : VLrndA) (s : State) : Host.Outcome State Fault Refusal :=
  .next (s.vecOut a.pg .fp32 a.vd fun _ l => (s.lacc a.va l).round .fp32 s.smode)
def execVlclr (pg : PIdx) (vd : BitVec 9) (s : State) : Host.Outcome State Fault Refusal :=
  .next (s.laccOut pg vd fun _ _ => Lacc.zero)

/-! ### The landing of a result (R136, R141) -/

/-- A result lands unless a matrix multiply of its own bundle has still to read its slices: A rows that have not entered, or ACC slices of
an ADD-mode multiply that has not drained (R70, R136; log 15). -/
def Die.mayLand (y : Die) (bsn : BitVec 48) (ws : BitVec 512) : Bool :=
  y.mmuls.all fun o =>
    o.bsn != bsn || ((o.rows ≤ o.latched.length || sliceSet o.aSl.flatten &&& ws == 0) && (!o.add || sliceSet o.cSl.flatten &&& ws == 0))

/-- A result of the flights of a die is written and its reservation ends; a load's data come by their own step. -/
def execVectorResultWrite (die idx : Nat) (s : State) : Host.Outcome State Fault Refusal :=
  .next (match (s.die die).flights[idx]? with
    | some f => if f.load || !(s.die die).mayLand f.bsn f.ws then s else s.updDie die fun y => { y.land f with flights := y.flights.eraseIdx idx }
    | none => s)

end Sys2Proof.Machine
end

