-- ==== Sys2Proof/Machine/LaneMem.lean ====
section
/-! DEFINITION. Lane accesses: the LD and SD slots (R196, R202, R221 to R233), the cache ways of a die (R200, R251), and the
steps that bring their data: returns, remote replies and walks (R228, R229, R359, R360, R364). -/

namespace Sys2Proof.Machine

/-! ### Addresses (R222, R223) -/

/-- The lanes that make an access: enabled quadrant and PG true, in lane order (R221). -/
def State.active (s : State) (pg : PIdx) : List (Nat × Lane) :=
  (s.dsrc.lanes.mapIdx fun pos l => (pos, l)).filter fun e => s.dsrc.on e.1 && s.dsrc.predAt pg e.2

/-- The index operand: unsigned 32 bits (R223). -/
def State.index (s : State) (vi : Opnd) (pos : Nat) (l : Lane) : Nat := s.val .n32 vi pos l

/-- X[XA] + (VI << SC) + sext(OFF), exact (R223). -/
def State.laneAddr (s : State) (xa : Reg) (sc : BitVec 3) (off : Int) (vi : Opnd) (pos : Nat) (l : Lane) : Int :=
  ((s.px xa).toNat + s.index vi pos l * 2 ^ sc.toNat : Nat) + off

/-- One lane's access: position, address. -/
abbrev LaneA := Nat × Int

/-- The scratchpad a vault address names: this die (none), or a die of the gang; and the offset (R196). -/
def State.vaultTarget (s : State) (a : Int) : Option Nat × Nat :=
  let n := a.toNat
  let k := n / 2 ^ 28 % 64
  if n.testBit 34 then (none, n % 2 ^ 28)
  else if s.cdn s.cur.die == k then (none, n % 2 ^ 28)
  else (some ((s.keyIn ((s.driver s.cur.die).elim [] s.gangDies) k).getD s.cur.die), n % 2 ^ 28)

/-- The cause of a vault access at issue: VAULT_RANGE, VAULT_FOREIGN, VAULT_ALIGN (R196, R228, R233). -/
def State.vaultCause (s : State) (size : Nat) (a : Int) : Option (BitVec 16) :=
  let n := a.toNat
  let k := n / 2 ^ 28 % 64
  let gang := match s.driver s.cur.die with
    | some c => lDieMask (s.ctx c).lrec
    | none => 0
  let t := s.vaultTarget a
  if a < 0 || 2 ^ 35 ≤ a then some 0x0105
  else if n.testBit 34 && k != 0 then some 0x0105
  else if t.1.isNone && (n.testBit 34 || gang.getLsbD k) && s.padSize s.cur.die < t.2 + size then some 0x0105
  else if !n.testBit 34 && !gang.getLsbD k then some 0x0106
  else if n % size != 0 then some 0x0107
  else none

/-- The cause of a global access at issue: GLOBAL_RANGE, GLOBAL_ALIGN (R233). -/
def globalCause (size : Nat) (a : Int) : Option (BitVec 16) :=
  if a < 0 || 2 ^ 56 ≤ a then some 0x0108 else if a.toNat % size != 0 then some 0x0109 else none

/-- The fault of the lowest lane that has one: its cause, the low 56 bits of its address, and the lanes that have any (R233, R356). -/
def laneFault (f : Int → Option (BitVec 16)) (l : List LaneA) : Option (BitVec 16 × Nat × List Nat) :=
  let bad := l.filter fun e => (f e.2).isSome
  match bad with
  | [] => none
  | e :: _ => some ((f e.2).getD 0, (e.2 % 2 ^ 56).toNat, bad.map (·.1))

/-- A list of lane writes by position as one entry for every lane. -/
def spread (n : Nat) (l : List (Nat × LaneW)) : List LaneW :=
  (upto n).map fun pos => ((l.find? (·.1 == pos)).map (·.2)).getD {}

/-- A load's data on their way to the lanes, with the scoreboard entries they hold (R204, R221). -/
def State.flyLoad (s : State) (ws : BitVec 512) (tags : List Nat) (lanes : List (Nat × LaneW)) : State :=
  (s.fly ws 0 [] [] (spread s.dsrc.lanes.length lanes)).updDx fun y =>
    { y with flights := y.flights.modify (y.flights.length - 1) fun f => { f with load := true, tags := tags } }

/-- Bytes of an access of this width. -/
def Dst.bytes (d : Dst) : Nat := d.w.bits / 8

/-! ### Outstanding accesses -/

/-- The slot's outstanding accesses hold its write reservation (R136, R221), and claim its slices in their lanes (R71). -/
def State.reserve (s : State) (ws : BitVec 512) (dst : List Nat) (lanes : List Nat) : State :=
  if lanes.isEmpty || ws == 0 then s
  else
    let cl := spread s.dsrc.lanes.length (lanes.map fun p => (p, putSlices dst 0))
    let s1 : State := { s with cur := { s.cur with claimed := (s.cur.slot, cl) :: s.cur.claimed } }
    s1.updDx fun y =>
      { y.wrote s.dsrc.qmask ws s.pbsn s.cur.slot with
        resv := y.resv ++ [{ bsn := s.pbsn, slot := s.cur.slot, qm := s.dsrc.qmask, ws := ws }] }

/-- Ends a slot's reservation once none of its accesses is outstanding (R136). -/
def Die.endResv (y : Die) (bsn : BitVec 48) (slot : Nat) : Die :=
  if y.gq.any (fun a => a.bsn == bsn && a.slot == slot) || y.rq.any (fun a => a.bsn == bsn && a.slot == slot) then y
  else { y with resv := y.resv.filter fun r => !(r.bsn == bsn && r.slot == slot) }

/-- Writes a value that a slot's access returns to the destination slices of a lane, but for those a higher slot of the bundle wrote (R71);
the replay queue takes it (R379). -/
def Die.landLane (y : Die) (bsn : BitVec 48) (slot pos : Nat) (dst : List Nat) (keep : BitVec 2048) (v : Nat) : Die :=
  let w := putSlices dst v
  let k : LaneW := { w with m := w.m &&& keep }
  let z := y.keepData bsn slot [(pos, k)]
  { z with regs := { z.regs with lanes := z.regs.lanes.modify pos fun l => l.apply k }
           parity := z.parity.filter fun e => !(e.1 == pos && k.m.getLsbD (4 * e.2)) }

/-- The data of a load land, and the replay queue takes them (R221, R379). -/
def Die.landLoad (y : Die) (f : Flight) : Die :=
  (y.land f).keepData f.bsn f.slot ((f.lanes.zipIdx.filter fun e => e.1.m != 0).map fun e => (e.2, e.1))

def allOnes2048 : BitVec 2048 := BitVec.allOnes 2048

/-- Queues remote accesses of the slot in lane order (R228). -/
def State.pushRemote (s : State) (dst : List Nat) (size : Nat) (op : Nat → LOp) (l : List LaneA) : State :=
  l.foldl (fun t e =>
    match s.vaultTarget e.2 with
    | (some d, o) =>
      t.updDx fun y =>
        { y with
          rq := y.rq ++ [{ sn := y.accSeq, bsn := s.pbsn, addr := s.paddr, slot := s.cur.slot, lane := e.1, dst := dst,
                           keep := allOnes2048, die := d, off := o, size := size, op := op e.1, field := s.curField,
                           scw := (s.cur.pkt.map (·.words)).getD [], present := s.present }]
          accSeq := y.accSeq + 1 }
    | (none, _) => t) s

/-- Queues global accesses of the slot in lane order, with the translation of a cached leaf at issue (R229, R365). -/
def State.pushGlobal (s : State) (dst : List Nat) (size : Nat) (dev : Bool) (k : AccK) (bell : Bool) (op : Nat → LOp)
    (l : List LaneA) : State :=
  let x := match s.driver s.cur.die with
    | some c => s.ctxXlat c
    | none => ⟨0, 0, false⟩
  l.foldl (fun t e =>
    let va := e.2.toNat
    let pa := match (t.dx.tlb.find? (·.hits x.job va)) with
      | some lf => (s.leafCheck lf x.secure k bell va).toOption
      | none => none
    t.updDx fun y =>
      { y with
        gq := y.gq ++ [{ sn := y.accSeq, bsn := s.pbsn, addr := s.paddr, slot := s.cur.slot, lane := e.1, dst := dst,
                         keep := allOnes2048, va := va, size := size, dev := dev, op := op e.1, pa := pa, xv := false }]
        accSeq := y.accSeq + 1 }) s

/-! ### Vault loads and stores (R227, R228) -/

/-- The lanes of a format-VM access with their addresses. -/
def State.vmLanes (s : State) (a : LMem) : List LaneA :=
  (s.active a.pg).map fun e => (e.1, s.laneAddr a.xa a.sc (sx 16 a.off.toNat) a.vi e.1 e.2)

/-- Local accesses: those of this die's scratchpad, as (position, offset). -/
def State.locals (s : State) (l : List LaneA) : List (Nat × Nat) :=
  l.filterMap fun e =>
    match s.vaultTarget e.2 with
    | (none, o) => some (e.1, o)
    | (some _, _) => none

/-- The lanes of a vault access with numbers that tell the lines of all scratchpads apart (R204). -/
def State.lineKeys (s : State) (l : List LaneA) : List (Nat × Nat) :=
  l.map fun e =>
    match s.vaultTarget e.2 with
    | (none, o) => (e.1, o)
    | (some d, o) => (e.1, (d + 1) * 2 ^ 28 + o)

/-- The bad granules that local lanes read, n bytes each, as scratchpad offsets. -/
def Die.gransOf (y : Die) (loc : List (Nat × Nat)) (n : Nat) : List Nat := (loc.flatMap fun e => y.badGrans e.2 n).eraseDups

/-- Remote accesses. -/
def State.remotes (s : State) (l : List LaneA) : List LaneA := l.filter fun e => (s.vaultTarget e.2).1.isSome

/-- A load from the vault: local lanes read the bytes that earlier bundles left (R202), remote lanes ask their dies. -/
def State.vaultLoad (s : State) (a : LMem) : State :=
  let n := Dst.bytes a.vd
  let l := s.vmLanes a
  match laneFault (s.vaultCause n) l with
  | some (c, ad, ls) => s.dieFault c ad ls
  | none =>
    let dst := s.dsrc.physD a.vd
    let loc := s.locals l
    let y := s.dx
    if !y.tagsFree s.pbsn (tagsOf (s.lineKeys l)) then s.stall
    else if loc.any fun e => y.padBad e.2 n then s.vaultConsume s.cur.die s.cur.die (y.gransOf loc n) s.pbsn
    else
      let rem := s.remotes l
      let s1 := s.flyLoad (sliceSet dst) (tagsOf loc) (loc.map fun e => (e.1, putSlices dst (y.padRd e.2 n)))
      (s1.reserve (sliceSet dst) dst (rem.map (·.1))).pushRemote dst n (fun _ => .load) rem

/-- The datum a lane stores, from its slices at issue (R221). -/
def State.datum (s : State) (d : Dst) (pos : Nat) : Nat := (s.laneAt pos).rd (s.dsrc.physD d)

/-- A store to the vault: local lanes act in lane order (R224), remote lanes ask their dies. -/
def State.vaultStore (s : State) (a : LMem) : State :=
  let n := Dst.bytes a.vd
  let l := s.vmLanes a
  match laneFault (s.vaultCause n) l with
  | some (c, ad, ls) => s.dieFault c ad ls
  | none =>
    let s1 := s.updDx fun y => (s.locals l).foldl (fun y e => y.padWr e.2 n (s.datum a.vd e.1)) y
    s1.pushRemote [] n (fun p => .store (w64 (s.datum a.vd p))) (s.remotes l)

def execVld (a : LMem) (s : State) : Host.Outcome State Fault Refusal := .next (s.vaultLoad a)
def execVldx (a : LMem) (s : State) : Host.Outcome State Fault Refusal := .next (s.vaultLoad a)
def execVst (a : LMem) (s : State) : Host.Outcome State Fault Refusal := .next (s.vaultStore a)
def execVstx (a : LMem) (s : State) : Host.Outcome State Fault Refusal := .next (s.vaultStore a)

/-! ### Global loads, stores and prefetch (R229, R359) -/

/-- No later global lane access of the die issues while its ring or a held lane waits (R359). -/
def Die.parked (y : Die) : Bool := !y.ring.isEmpty || !y.heldLanes.isEmpty

/-- The scoreboard entries that a global load of these lanes needs (R204, R221). -/
def globalTags (l : List LaneA) : List Nat := tagsOf (l.map fun e => (e.1, e.2.toNat))

/-- A global VAMO, and a global store to the host or doorbell window, stalls in a speculative run (R232, R309). -/
def State.specDie (s : State) (d : Nat) : Bool :=
  match s.driver d with
  | some c => (s.ctx c).isSpec
  | none => false

def execVldg (a : LMem) (s : State) : Host.Outcome State Fault Refusal :=
  let n := Dst.bytes a.vd
  let l := s.vmLanes a
  .next (
    if s.dx.parked then s.stall
    else match laneFault (globalCause n) l with
      | some (c, ad, ls) => s.dieFault c ad ls
      | none =>
        let dst := s.dsrc.physD a.vd
        if !s.dx.tagsFree s.pbsn (globalTags l) then s.stall
        else (s.reserve (sliceSet dst) dst (l.map (·.1))).pushGlobal dst n a.dev .load false (fun _ => .load) l)

/-- A speculative run's store to the host or doorbell window waits for the claim (R309). -/
def State.specHeld (s : State) (d pa : Nat) : Bool := s.specDie d && (isHost pa || isBell pa)

/-- A store of a speculative run to an address that its translation puts into the host or doorbell window (R309). -/
def State.specWindow (s : State) (d va : Nat) : Bool :=
  s.specDie d &&
    (match s.translate (s.die d).tlb ((s.driver d).elim ⟨0, 0, false⟩ s.ctxXlat) .store false va with
     | .ok (pa, _) => s.specHeld d pa
     | .error _ => false)

def execVstg (a : LMem) (s : State) : Host.Outcome State Fault Refusal :=
  let n := Dst.bytes a.vd
  let l := s.vmLanes a
  .next (
    if s.dx.parked then s.stall
    else match laneFault (globalCause n) l with
      | some (c, ad, ls) => s.dieFault c ad ls
      | none =>
        if l.any fun e => s.specWindow s.cur.die e.2.toNat then s.stall
        else s.pushGlobal [] n a.dev .store false (fun p => .store (w64 (s.datum a.vd p))) l)

/-! ### VLDT (R212, R230) -/

/-- The tile byte offset of a lane; it is no address, so a fault of VLDT has none in its record (R356; log 22). -/
def State.vldtOff (s : State) (a : VLdtA) (pos : Nat) (l : Lane) : Nat :=
  bf (s.px a.xa) 31 0 + s.index a.vi pos l * 32 + pos % 64 * 2 ^ (a.sc.toNat + 6) + 2 * (pos % 1024 / 64)

def execVldt (a : VLdtA) (s : State) : Host.Outcome State Fault Refusal :=
  let y := s.dx
  let t := y.tile a.tn
  let l := (s.active a.pg).map fun e => (e.1, s.vldtOff a e.1 e.2)
  let cause (o : Nat) : Option (BitVec 16) :=
    if o % 2 != 0 then some 0x0107
    else if t.st == .empty && !t.pend then some 0x0101
    else if t.bytes < o + 2 then some 0x0102 else none
  let dst := s.dsrc.phys a.start.toNat 4
  .next (
    if t.st == .filling || (t.st == .empty && t.pend) then s.stall
    else match laneFault (fun o => cause o.toNat) (l.map fun e => (e.1, (e.2 : Int))) with
      | some (c, _, ls) => s.dieFault c 0 ls
      | none =>
        if !s.dx.tagsFree s.pbsn (tagsOf l) then s.stall
        else if l.any fun e => s.tileBad y t e.2 2 then
          s.vaultConsume s.cur.die s.cur.die (l.flatMap fun e => s.tileGrans y t e.2 2).eraseDups s.pbsn
        else s.flyLoad (sliceSet dst) (tagsOf l) (l.map fun e => (e.1, putSlices dst (s.tileRd y t e.2 2))))

/-! ### SPILL and FILL (R206, R207, R231) -/

/-- The first spill slice, without wrap. -/
def State.spillAt (s : State) (a : SpillA) : Nat := a.sps.toNat + (s.px a.xo).toNat

def State.spillBad (s : State) (a : SpillA) : Bool := 4095 < s.spillAt a + a.nsm1.toNat

/-- A lane's spill slices; one not written in this launch reads as zero (R206). -/
def Die.spillRd (y : Die) (pos s0 n : Nat) : Nat := (Tbl.get 0 y.spill pos).toNat / 2 ^ (4 * s0) % 2 ^ (4 * n)
def Die.spillWr (y : Die) (pos s0 n v : Nat) : Die :=
  let o := Tbl.get (0 : BitVec 16384) y.spill pos
  let m : BitVec 16384 := BitVec.ofNat 16384 ((2 ^ (4 * n) - 1) * 2 ^ (4 * s0))
  { y with spill := y.spill.put pos ((o &&& ~~~m) ||| BitVec.ofNat 16384 (v % 2 ^ (4 * n) * 2 ^ (4 * s0)))
           sbad := y.sbad.filter fun e => !(e.1 == pos && s0 ≤ 32 * e.2 && 32 * e.2 + 32 ≤ s0 + n) }

/-- The granules of the system way with an uncorrectable error among the spill slices that a FILL reads in a lane (R375, R381). -/
def Die.spillHurt (y : Die) (pos s0 n : Nat) : List (Nat × Nat) :=
  y.sbad.filter fun e => e.1 == pos && s0 < 32 * e.2 + 32 && 32 * e.2 < s0 + n

/-- A FILL consumes the bad granules that it reads, one error each. They lie in no scratchpad byte, so their records hold no address (R391). -/
def State.spillConsume (s : State) (d : Nat) (gs : List (Nat × Nat)) (bsn : BitVec 48) : State :=
  match s.driver d with
  | some c =>
    s.consumeAll c [d] (s.vaultBank d) (gs.map fun _ => (s.vaultBank d,
      { uc := true, kind := 2, w2 := Config.syndrome s.stepNo, w3 := bsn.setWidth 64 })) bsn false
  | none => s

/-- The Vitrine of a die overlaps its spill area (R207). -/
def State.vitOverlap (s : State) (d : Nat) : Bool :=
  match s.driver d with
  | some c => 2 ≤ (s.job (lJob (s.ctx c).lrec)).vitcap.toNat
  | none => false

/-- A SPILL of a speculative run into a block that holds its Vitrine lines discards the run first (R207). -/
def State.spillHitsVit (s : State) (l : List (Nat × Lane)) : Bool :=
  s.vitOverlap s.cur.die && l.any fun e =>
    (upto s.dx.vitrine.length).any fun i => Config.vitBlock i == Config.spillBlock e.1

def execSpill (a : SpillA) (s : State) : Host.Outcome State Fault Refusal :=
  let l := s.active a.pg
  let n := a.nsm1.toNat + 1
  let src := s.dsrc.phys a.ss.toNat n
  .next (
    if !l.isEmpty && s.spillBad a then s.dieFault 0x010B 0 (l.map (·.1))
    else if s.spillHitsVit l then
      (match s.driver s.cur.die with
       | some c => s.discard c 61
       | none => s)
    else s.updDx fun y => l.foldl (fun y e => y.spillWr e.1 (s.spillAt a) n (e.2.rd src)) y)

def execFill (a : SpillA) (s : State) : Host.Outcome State Fault Refusal :=
  let l := s.active a.pg
  let n := a.nsm1.toNat + 1
  let dst := s.dsrc.phys a.ss.toNat n
  .next (
    if !l.isEmpty && s.spillBad a then s.dieFault 0x010B 0 (l.map (·.1))
    else
      let tags := tagsOf (l.map fun e => (e.1, 2048 * e.1 + s.spillAt a / 2))
      let hurt := l.flatMap fun e => s.dx.spillHurt e.1 (s.spillAt a) n
      if !s.dx.tagsFree s.pbsn tags then s.stall
      else if !hurt.isEmpty then s.spillConsume s.cur.die hurt s.pbsn
      else s.flyLoad (sliceSet dst) tags (l.map fun e => (e.1, putSlices dst (s.dx.spillRd e.1 (s.spillAt a) n))))

/-! ### VAMO (R232) -/

/-- The lanes of a VAMO with their addresses. -/
def State.vamoLanes (s : State) (a : VAmoA) : List LaneA :=
  (s.active a.pg).map fun e => (e.1, s.laneAddr a.xa a.sc 0 a.vi e.1 e.2)

/-- The operand and the compare value of a lane; the latter is the operand of the same width behind VS (R232). -/
def State.vamoOp (s : State) (a : VAmoA) (pos : Nat) : LOp :=
  let cmp := (s.laneAt pos).rd (s.dsrc.phys (a.vs.start.toNat + a.vs.w.slices) a.vs.w.slices)
  .amo a.op (w64 (s.datum a.vs pos)) (if a.op == .cas then w64 cmp else 0)

/-- A read-modify-write of n bytes of a scratchpad: the die after it, and the old value (R232). -/
def Die.padAmo (y : Die) (o n : Nat) (op : LOp) : Die × Nat :=
  let old := y.padRd o n
  match op with
  | .amo f b c => (y.padWr o n (amoNew f n old b.toNat c.toNat), old)
  | .store v => (y.padWr o n v.toNat, old)
  | .load => (y, old)

/-- The local lanes of a vault VAMO act in lane order; the old values by position (R224, R232). -/
def vamoLocal (n : Nat) (op : Nat → LOp) : List (Nat × Nat) → Die → Die × List (Nat × Nat)
  | [], y => (y, [])
  | e :: r, y =>
    let u := y.padAmo e.2 n (op e.1)
    let t := vamoLocal n op r u.1
    (t.1, (e.1, u.2) :: t.2)

def execVamo (a : VAmoA) (s : State) : Host.Outcome State Fault Refusal :=
  let n := Dst.bytes a.vs
  let l := s.vamoLanes a
  let dst := s.dsrc.physD a.vd
  .next (
    if a.glob then
      if s.dx.parked || s.specDie s.cur.die then s.stall
      else match laneFault (globalCause n) l with
        | some (c, ad, ls) => s.dieFault c ad ls
        | none =>
          if !s.dx.tagsFree s.pbsn (globalTags l) then s.stall
          else (s.reserve (sliceSet dst) dst (l.map (·.1))).pushGlobal dst n true .atomic true (s.vamoOp a) l
    else match laneFault (s.vaultCause n) l with
      | some (c, ad, ls) => s.dieFault c ad ls
      | none =>
        let loc := s.locals l
        if !s.dx.tagsFree s.pbsn (tagsOf (s.lineKeys l)) then s.stall
        else if loc.any fun e => s.dx.padBad e.2 n then s.vaultConsume s.cur.die s.cur.die (s.dx.gransOf loc n) s.pbsn
        else
          let r := vamoLocal n (s.vamoOp a) loc s.dx
          let rem := s.remotes l
          let s1 := (s.setDie s.cur.die r.1).flyLoad (sliceSet dst) (tagsOf loc) (r.2.map fun e => (e.1, putSlices dst e.2))
          (s1.reserve (sliceSet dst) dst (rem.map (·.1))).pushRemote dst n (s.vamoOp a) rem)

/-! ### Replies from other dies (R228) -/

/-- A remote access fails its target's check (R196, R228). -/
def State.remoteBad (s : State) (a : RAcc) : Bool := s.padSize a.die < a.off + a.size

/-- No earlier remote access of the die overlaps this one. -/
def rqFree (l : List RAcc) (idx : Nat) : Bool :=
  match l[idx]? with
  | some a => (l.take idx).all fun b => b.die != a.die || !overlap a.off a.size b.off b.size
  | none => false

/-- A remote access is performed at its target and its lane written. -/
def State.performRemote (s : State) (d idx : Nat) (a : RAcc) : State :=
  let t := s.die a.die
  if t.padBad a.off a.size && !(match a.op with | .store _ => true | _ => false) then
    (s.updDie d fun y => { y with rq := y.rq.eraseIdx idx }.endResv a.bsn a.slot).vaultConsume d a.die (t.badGrans a.off a.size) a.bsn
  else
    let r := t.padAmo a.off a.size a.op
    (s.setDie a.die r.1).updDie d fun y =>
      ({ y with rq := y.rq.eraseIdx idx }.landLane a.bsn a.slot a.lane a.dst a.keep r.2).endResv a.bsn a.slot

/-- The failing lanes of a slot's remote access: the die fault VAULT_RANGE names them, and a replay repeats them (R228, R355). Its address is
that of the lowest failing lane, whichever reply came first, as for the causes found at issue (R233): the spec is silent, and this is the
model's choice (log 22). -/
def State.remoteFault (s : State) (d : Nat) (a : RAcc) : State :=
  let mine (b : RAcc) : Bool := b.bsn == a.bsn && b.slot == a.slot && s.remoteBad b
  let bad := (s.die d).rq.filter mine
  let f : DFault :=
    { bsn := a.bsn, addr := a.addr, slot := a.slot, cause := 0x0105, data := (bad.head?.map fun b => s.vaultAt b.die b.off).getD 0,
      lanes := bad.map (·.lane), walk := 0, field := a.field, scw := a.scw, cmask := dropSlot a.present a.slot, redo := .remote bad }
  (s.updDie d fun y => { y with rq := y.rq.filter fun b => !mine b }.markRemote bad).raiseDie d f

/-- The reply to remote access number idx of a die (R228). -/
def execRemoteVaultReply (die idx : Nat) (s : State) : Host.Outcome State Fault Refusal :=
  .next (match (s.die die).rq[idx]? with
    | some a =>
      if !rqFree (s.die die).rq idx || !(s.die die).mayLand a.bsn (sliceSet a.dst) then s
      else if s.remoteBad a then s.remoteFault die a
      else s.performRemote die idx a
    | none => s)

/-! ### The cache ways (R200, R251) -/

def Die.cline (y : Die) (pa : Nat) : Option CLine := y.cache.find? (·.line == pa / 128)

def Die.putLine (y : Die) (l : CLine) : Die :=
  if y.cache.any (·.line == l.line) then { y with cache := y.cache.map fun k => if k.line == l.line then l else k }
  else { y with cache := y.cache ++ [l] }

/-- The bytes of a line at home as one word. -/
def State.homeLine (s : State) (line : Nat) : BitVec 1024 := BitVec.ofNat 1024 (s.homeRd (line * 128) 128)

/-- A mask of bytes as a mask of bits. -/
def byteMask (m : BitVec 128) : BitVec 1024 :=
  BitVec.ofNat 1024 ((bitsOf m).foldl (fun n i => n + 255 * 2 ^ (8 * i)) 0)

/-- A line with every byte valid: its own valid bytes, and home's elsewhere. -/
def State.fillLine (s : State) (l : CLine) : CLine :=
  let m := byteMask l.valid
  { l with data := (l.data &&& m) ||| (s.homeLine l.line &&& ~~~m), valid := BitVec.allOnes 128 }

/-- The cache serves an address: a weak access outside the host and doorbell windows, with cache ways, outside a speculative
run (R200, R250, R307). -/
def State.cached (s : State) (d pa : Nat) (dev : Bool) : Bool :=
  !dev && !isHost pa && !isBell pa && (s.die d).w != 15 && !s.specDie d

/-- All n bytes of a line from byte p on are valid. -/
def CLine.has (l : CLine) (p n : Nat) : Bool := (upto n).all fun i => l.valid.getLsbD (p + i)

/-- A byte range of the home writes that the dirty bytes of a line make (R251). -/
def State.writeDirty (s : State) (l : CLine) : State :=
  (bitsOf l.dirty).foldl (fun t i => t.memWr (l.line * 128 + i) 1 (bf l.data (8 * i + 7) (8 * i))) s

/-- A line with an uncorrectable error. -/
def Die.cbad (y : Die) (pa : Nat) : Bool := y.cpoison.contains (pa / 128)

/-- A dirty line that can be read is written to its home; one that cannot is written with poison, and the vault's bank records it (R251, R381,
R391). -/
def State.writeBack (s : State) (d : Nat) (l : CLine) : State :=
  if l.dirty == 0 then s
  else if (s.die d).cpoison.contains l.line then
    ((s.addPoison (l.line * 128)).addPoison (l.line * 128 + 64)).logErr (s.vaultBank d)
      { uc := true, kind := 2, w1 := w64 (l.line * 128), w2 := Config.syndrome s.stepNo }
  else s.writeDirty l

/-- Takes a line out of a die's cache ways. -/
def State.dropLine (s : State) (d line : Nat) : State :=
  s.updDie d fun y =>
    { y with cache := y.cache.filter fun l => l.line != line, cpoison := y.cpoison.filter fun l => l != line }

/-- A line with an uncorrectable error that nothing consumes leaves the ways: only the vault's bank records it (R381). -/
def State.loseLine (s : State) (d line : Nat) : State :=
  (s.dropLine d line).logErr (s.vaultBank d) { uc := true, kind := 2, w1 := w64 (line * 128), w2 := Config.syndrome s.stepNo }

/-- Writes a line back and keeps it clean; one that cannot be read is gone (R251, R381). -/
def State.cleanLine (s : State) (d line : Nat) : State :=
  match (s.die d).cache.find? (·.line == line) with
  | some l =>
    if !(s.die d).cpoison.contains line then (s.writeBack d l).updDie d fun y => y.putLine { l with dirty := 0 }
    else if l.dirty == 0 then s.loseLine d line
    else (s.writeBack d l).dropLine d line
  | none => s

/-- A line that the die caches takes bytes that its die has written at home: its own later accesses see them, and no write-back brings older
bytes of it home (R252, R261). -/
def Die.cacheUpdate (y : Die) (pa n v : Nat) : Die :=
  match y.cline pa with
  | some l =>
    let m : BitVec 128 := BitVec.ofNat 128 ((2 ^ n - 1) * 2 ^ (pa % 128))
    y.putLine { l with data := putBytes l.data (pa % 128) n v, valid := l.valid ||| m, dirty := l.dirty &&& ~~~m }
  | none => y

/-- The die holds dirty bytes of the range in its ways. -/
def Die.dirtyIn (y : Die) (pa n : Nat) : Bool := (y.cline pa).any fun l => (upto n).any fun i => l.dirty.getLsbD (pa % 128 + i)

/-- Before an access of a die at home its own weak stores to the same bytes are written back: the die sees them in program order (R252). -/
def State.ownFirst (s : State) (d pa n : Nat) : State := if (s.die d).dirtyIn pa n then s.cleanLine d (pa / 128) else s

/-! ### Performing global lane accesses (R224, R229, R251, R359) -/

/-- A lane access shares a byte with another, by virtual address. -/
def GAcc.vaOverlap (a b : GAcc) : Bool := overlap a.va a.size b.va b.size

/-- An outstanding access may be performed: it is translated, every earlier one is, none of those overlaps it, and no parked or
held earlier access does (R224, R359). -/
def Die.gqFree (y : Die) (idx : Nat) : Bool :=
  match y.gq[idx]? with
  | none => false
  | some a =>
    match a.pa with
    | none => false
    | some pa =>
      ((y.gq.take idx).all fun b =>
        match b.pa with
        | none => false
        | some q => !overlap pa a.size q b.size) &&
      (y.ring.all fun e => !(e.2.acc.sn < a.sn && a.vaOverlap e.2.acc)) &&
      (y.heldLanes.all fun e => !(e.acc.sn < a.sn && a.vaOverlap e.acc))

/-- Takes access number idx off the list. -/
def Die.dropG (y : Die) (idx : Nat) : Die :=
  match y.gq[idx]? with
  | some a => { y with gq := y.gq.eraseIdx idx }.endResv a.bsn a.slot
  | none => y

/-- A load of a die: the state with the cache filled, and the value, or none when the data are poisoned or cannot be read (R200, R251,
R381). A run whose own Vitrine bytes cover the whole read still meets the poison of the home line: R307 gives it the bytes and R381 speaks of
a load that receives a poisoned line; the model's choice (log 22). -/
def State.dieLoad (s : State) (d pa n : Nat) (dev : Bool) : State × Option Nat :=
  if s.cached d pa dev then
    if (s.die d).cbad pa then (s.dropLine d (pa / 128), none)
    else
      let l := ((s.die d).cline pa).getD ⟨pa / 128, 0, 0, 0⟩
      let p := pa % 128
      if CLine.has l p n then (s, some (bf l.data (8 * (p + n) - 1) (8 * p)))
      else if s.poisonAt pa || s.poisonAt (l.line * 128) || s.poisonAt (l.line * 128 + 64) then (s.countDie d 0x06 1, none)
      else
        let f := s.fillLine l
        ((s.updDie d fun y => y.putLine f).countDie d 0x06 1, some (bf f.data (8 * (p + n) - 1) (8 * p)))
  else if s.specDie d then (s, if s.poisonIn pa n || s.vitBad d pa then none else some (s.vitRd d pa n))
  else
    let t := s.ownFirst d pa n
    (t, if t.poisonIn pa n then none else some (t.homeRd pa n))

/-- A store of a die: into its cache ways, its run's Vitrine, or at home (R200, R251, R307). -/
def State.dieStore (s : State) (d pa n v : Nat) (dev : Bool) : State :=
  if s.cached d pa dev then
    let l := ((s.die d).cline pa).getD ⟨pa / 128, 0, 0, 0⟩
    let p := pa % 128
    let m : BitVec 128 := BitVec.ofNat 128 ((2 ^ n - 1) * 2 ^ p)
    s.updDie d fun y => y.putLine { l with data := putBytes l.data p n v, valid := l.valid ||| m, dirty := l.dirty ||| m }
  else match s.driver d with
    | some c =>
      if (s.ctx c).isSpec then s.vitStore c d pa n v
      else (s.devWr (lJob (s.ctx c).lrec) pa n v).updDie d fun y => y.cacheUpdate pa n v
    | none => s.homeWr pa n v

/-- An atomic of a die at home: the state after it and the old value; none where the data are poisoned (R232, R252, R381). -/
def State.dieAmo (s : State) (d pa n : Nat) (f : AOp) (b c : W64) : State × Option Nat :=
  let t := s.ownFirst d pa n
  if t.poisonIn pa n then (t, none)
  else
    let old := t.homeRd pa n
    let v := amoNew f n old b.toNat c.toNat
    ((t.homeWr pa n v).updDie d fun y => y.cacheUpdate pa n v, some old)

/-- VPREF brings the line of an address into the cache ways, unless its translation fails, the ways do not cache it or its data are poisoned
(R200, R229). R229 lets a prefetch be dropped; the model never drops another one (log 22). Poison that it meets, and a line of the ways that
cannot be read, are no consumption: their banks record them (R381). -/
def State.prefLine (s : State) (d va : Nat) : State :=
  match s.translate (s.die d).tlb ((s.driver d).elim ⟨0, 0, false⟩ s.ctxXlat) .load false va with
  | .error _ => s
  | .ok (pa, e) =>
    let line := pa / 128
    let l := ((s.die d).cline pa).getD ⟨line, 0, 0, 0⟩
    if !s.cached d pa false then s
    else if (s.die d).cbad pa then s.cleanLine d line
    else if s.poisonAt (line * 128) || s.poisonAt (line * 128 + 64) then
      s.logErr (memBank pa) { uc := true, kind := 5, w1 := w64 (line * 128), w2 := Config.syndrome s.stepNo }
    else s.updDie d fun y => { y.putLine (s.fillLine l) with tlb := tlbAdd s.xinvBusy y.tlb e }

/-- VPREF changes no visible state and raises no fault (R229): the lines that its lanes name come into the cache ways. -/
def execVpref (a : VPrefA) (s : State) : Host.Outcome State Fault Refusal :=
  .next ((s.active a.pg).foldl (fun t e =>
    let va := s.laneAddr a.xa a.sc (sx 16 a.off.toNat) a.vi e.1 e.2
    if va < 0 || 2 ^ 56 ≤ va then t else t.prefLine s.cur.die va.toNat) s)

/-- The run of a die is being discarded: what waits for its claim goes with it (R309, R317). -/
def State.dying (s : State) (d : Nat) : Bool :=
  match s.driver d with
  | some c => (s.ctx c).spec.any fun r => r.st == .discarding
  | none => false

/-- A die consumes an uncorrectable error of a line of its cache ways, which is gone, or of its Vitrine (R381, R435). Where the line is dirty its
bytes are lost, and home keeps what it holds: R381 has a poisoned line "invalidated at once", and a dirty one that cannot be read "for
write-back" written home with poison; the model's choice between them (log 22). -/
def State.wayError (s : State) (d pa : Nat) (bsn : BitVec 48) : State :=
  (s.dropLine d (pa / 128)).dieConsume d (s.vaultBank d) 2 (w64 (pa / 128 * 128)) bsn

/-- A global load or atomic of a lane is performed and lands (R229, R232). -/
def State.performG (s : State) (d idx : Nat) (a : GAcc) (pa : Nat) : State :=
  match a.op with
  | .store _ => s
  | .load =>
    if s.specDie d && isHost pa then
      (match s.driver d with
       | some c => (s.discard c 62).updDie d fun y => y.dropG idx
       | none => s)
    else
      let way := (s.cached d pa a.dev && (s.die d).cbad pa) || (s.specDie d && s.vitBad d pa)
      match s.dieLoad d pa a.size a.dev with
      | (t, some v) => t.updDie d fun y => (y.landLane a.bsn a.slot a.lane a.dst a.keep v).dropG idx
      | (t, none) =>
        let u := t.updDie d fun y => y.dropG idx
        if way then u.wayError d pa a.bsn else u.diePoison d pa a.bsn
  | .amo f b c =>
    match s.dieAmo d pa a.size f b c with
    | (t, some old) => t.updDie d fun y => (y.landLane a.bsn a.slot a.lane a.dst a.keep old).dropG idx
    | (t, none) => (t.updDie d fun y => y.dropG idx).diePoison d pa a.bsn

/-- The data of a load return: number idx of the die's flights, then of its outstanding global accesses (R221, R229). -/
def execLoadDataReturn (die idx : Nat) (s : State) : Host.Outcome State Fault Refusal :=
  let y := s.die die
  .next (match y.flights[idx]? with
    | some f => if f.load && y.mayLand f.bsn f.ws then s.setDie die { y.landLoad f with flights := y.flights.eraseIdx idx } else s
    | none =>
      let i := idx - y.flights.length
      match y.gq[i]? with
      | some a =>
        (match a.pa with
         | some pa => if y.gqFree i && y.mayLand a.bsn (sliceSet a.dst) then s.performG die i a pa else s
         | none => s)
      | none => s)

/-- The run of a die is STALLED (R309, R319). -/
def State.dieStalls (s : State) (d : Nat) : State := (s.driver d).elim s s.noteStall

/-- A global store of a lane is performed (R229, R251). -/
def State.performGStore (s : State) (d idx : Nat) : State :=
  let y := s.die d
  match y.gq[idx]? with
  | some a =>
    match a.pa, a.op with
    | some pa, .store v =>
      if !y.gqFree idx then s
      else if s.specHeld d pa then (if s.dying d then s.updDie d fun y => y.dropG idx else s.dieStalls d)
      else (s.updDie d fun y => y.dropG idx).dieStore d pa a.size v.toNat a.dev
    | _, _ => s
  | none => s

/-! ### Walks and the retry ring (R359, R360, R364) -/

/-- What an access asks of its translation. -/
def GAcc.kind (a : GAcc) : AccK :=
  match a.op with
  | .load => .load
  | .store _ => .store
  | .amo _ _ _ => .atomic

def GAcc.isAmo (a : GAcc) : Bool :=
  match a.op with
  | .amo _ _ _ => true
  | _ => false

/-- Entries of a partition's retry ring (R359). -/
def State.ringSize (s : State) : Nat := if s.unprot then 2048 else 4096

/-- The first index that is not valid, from `from` on, modulo the ring's size (R360). -/
def freeIdx (ring : Tbl RetryE) (size : Nat) : Nat → Nat → Option Nat
  | _, 0 => none
  | i, n + 1 => if (Tbl.get? ring (i % size)).isNone then some (i % size) else freeIdx ring size (i + 1) n

/-- Held lanes in order of their accesses. -/
def insHeld (e : RetryE) : List RetryE → List RetryE
  | [] => [e]
  | k :: r => if e.acc.sn < k.acc.sn then e :: k :: r else k :: insHeld e r

/-- Held lanes take free ring entries in the order of their accesses (R359, R360). -/
def Die.fillRing (y : Die) (size : Nat) : Nat → Die × Nat
  | 0 => (y, 0)
  | n + 1 =>
    match y.heldLanes with
    | [] => (y, 0)
    | e :: r =>
      match freeIdx y.ring size y.ringNext size with
      | none => (y, 0)
      | some i =>
        let t := ({ y with heldLanes := r, ring := y.ring.put i e, ringNext := (i + 1) % size }).fillRing size n
        (t.1, t.2 + 1)

/-- Gives ring entries to held lanes, counting each (R344). -/
def State.promote (s : State) (d : Nat) : State :=
  let r := (s.die d).fillRing s.ringSize (s.die d).heldLanes.length
  (s.setDie d r.1).countDie d 0x07 r.2

/-- A lane whose translation failed: it is held with a pending mark on its destination (R359); a speculative run is
discarded. -/
def State.holdLane (s : State) (d : Nat) (a : GAcc) (w : BitVec 8) : State :=
  match s.driver d with
  | some c =>
    if (s.ctx c).isSpec then s.discard c 62
    else s.updDie d fun y =>
      { y with heldLanes := insHeld { acc := a, walk := w } y.heldLanes
               marks := if a.dst.isEmpty then y.marks else y.marks ++ [(a.lane, sliceSet a.dst)] }
  | none => s

/-- An access waits for a walk. -/
def GAcc.walking (a : GAcc) : Bool := a.pa.isNone && a.bad.isNone

/-- Accesses of the die wait for the walk of a 64 KiB page (R364). -/
def Die.walkOn (y : Die) (vpage : Nat) : Bool := y.gq.any fun a => a.walking && a.va / 65536 == vpage

/-- The accesses whose walks have failed and that no walk of an earlier access can come before any more, with their codes: lanes take ring
entries in the order of their accesses (R359). -/
def failedFirst : List GAcc → List (GAcc × BitVec 8)
  | [] => []
  | a :: r =>
    match a.pa, a.bad with
    | none, none => []
    | none, some w => (a, w) :: failedFirst r
    | some _, _ => failedFirst r

/-- Those lanes leave the accesses in flight: they take entries of the retry ring, or are held (R359). -/
def State.settleLanes (s : State) (d : Nat) : State :=
  let l := failedFirst (s.die d).gq
  let s1 := s.updDie d fun y => { y with gq := y.gq.filter fun a => !(l.map fun e => e.1).contains a }
  let s2 := l.foldl (fun t e => t.holdLane d { e.1 with bad := none } e.2) s1
  (l.foldl (fun t e => t.updDie d fun y => y.endResv e.1.bsn e.1.slot) s2).promote d

/-- The walk of a 64 KiB page completes for every access of the die that waits on it (R364): each takes its translation, or its
lane fails. -/
def State.walkPage (s : State) (d vpage : Nat) : State :=
  let y := s.die d
  let x := match s.driver d with
    | some c => s.ctxXlat c
    | none => ⟨0, 0, false⟩
  let hit (a : GAcc) : Bool := a.walking && a.va / 65536 == vpage
  let tr (a : GAcc) : Except (BitVec 8) (Nat × TlbE) := s.translate [] x a.kind a.isAmo a.va
  let gq := y.gq.map fun a =>
    if hit a then
      match tr a with
      | .ok r => { a with pa := some r.1 }
      | .error w => { a with bad := some w }
    else a
  let tlb := (y.gq.filter hit).foldl (fun t a =>
    match tr a with
    | .ok r => tlbAdd s.xinvBusy t r.2
    | .error _ => t) y.tlb
  (s.setDie d { y with gq := gq, tlb := tlb }).settleLanes d

/-- A walk completes (R361, R364). -/
def execTranslationWalkComplete (die vpage : Nat) (s : State) : Host.Outcome State Fault Refusal :=
  .next (s.walkPage die vpage)

end Sys2Proof.Machine
end

