-- ==== Sys2Proof/Machine/CopyEng.lean ====
section
/-! DEFINITION. The C slot and the copy engine: descriptors (R216 to R218, R236), copies and their boxes (R219, R220, R237 to
R239, R261), multicasts (R214, R240), tiles (R209 to R213, R241), CFLUSH, CSPLIT and CSTAT (R201, R242 to R244), and the write-back
and drop of a cache line (R251). -/

namespace Sys2Proof.Machine

/-! ### Descriptors (R216, R218) -/

def dDir (r : BitVec 512) : Nat := bf r 456 455
def dPadW (r : BitVec 512) : Bool := r.getLsbD 454
def dBulk (r : BitVec 512) : Bool := r.getLsbD 453
/-- The element size in bytes. -/
def dEsz (r : BitVec 512) : Nat := 2 ^ bf r 452 451
def dNdim (r : BitVec 512) : Nat := bf r 450 448
def dExt (r : BitVec 512) (d : Nat) : Nat := bf r (64 * d + 191) (64 * d + 168)
def dStride (r : BitVec 512) (d : Nat) : Int := sx 40 (bf r (64 * d + 167) (64 * d + 128))
def dPadv (r : BitVec 512) : Nat := bf r 127 64
def dBase (r : BitVec 512) : Nat := bf r 55 0

/-- The five dimensions. -/
def dims : List Nat := [0, 1, 2, 3, 4]

def isum (l : List Int) : Int := l.foldl (· + ·) 0

/-- DESC_FORMAT (R218). -/
def descFormatBad (r : BitVec 512) : Bool :=
  dNdim r == 0 || 5 < dNdim r || dDir r == 0 || bf r 511 457 != 0 || bf r 63 56 != 0 ||
    dims.any fun d => if d < dNdim r then dExt r d == 0 else dExt r d != 0 || dStride r d != 0

/-- DESC_ALIGN (R218). -/
def descAlignBad (r : BitVec 512) : Bool :=
  let e := dEsz r
  if dBulk r then
    dBase r % 64 != 0 || dStride r 0 != 1 || (dExt r 0 * e) % 64 != 0 ||
      dims.any fun d => d != 0 && ((e : Int) * dStride r d) % 64 != 0
  else dBase r % e != 0

/-- The reachable bytes lo and hi (R218). -/
def descLo (r : BitVec 512) : Int :=
  (dBase r : Int) + dEsz r * isum (dims.map fun d => min 0 (((dExt r d : Int) - 1) * dStride r d))
def descHi (r : BitVec 512) : Int :=
  (dBase r : Int) + dEsz r * isum (dims.map fun d => max 0 (((dExt r d : Int) - 1) * dStride r d)) + dEsz r - 1

/-! Region entries (R215) -/

def rgValid (e : BitVec 256) : Bool := e.getLsbD 255
def rgAcc (e : BitVec 256) : Nat := bf e 254 253
def rgWatch (e : BitVec 256) : Bool := e.getLsbD 252
def rgBound (e : BitVec 256) : Bool := e.getLsbD 251
def rgBol (e : BitVec 256) : Nat := bf e 250 239
def rgBase (e : BitVec 256) : Nat := bf e 183 128
def rgSize (e : BitVec 256) : Nat := bf e 119 64
def rgVersion (e : BitVec 256) : BitVec 32 := BitVec.ofNat 32 (bf e 31 0)

/-- A valid region holds a range of bytes wholly; one of size 0 matches nothing (R215). -/
def rgHolds (e : BitVec 256) (lo hi : Int) : Bool :=
  rgValid e && rgSize e != 0 && (rgBase e : Int) ≤ lo && hi < (rgBase e : Int) + rgSize e

/-- The code of CDESC: the first failing check of R218 against a region table. -/
def descCode (rs : Tbl (BitVec 256)) (r : BitVec 512) : Nat :=
  let lo := descLo r
  let hi := descHi r
  let inside := rs.filter fun e => rgHolds e.2 lo hi
  if descFormatBad r then 1
  else if descAlignBad r then 2
  else if lo < 0 || 2 ^ 56 ≤ hi then 3
  else if inside.isEmpty then 4
  else if inside.all fun e => rgAcc e.2 &&& dDir r != dDir r then 5
  else 0

/-- The record of a CDESC and its code, as the bundle reads them at step 4 (R236). -/
def State.descAt (s : State) (slma : BitVec 12) : BitVec 512 × Nat :=
  let x := s.cx
  let x := { x with slm := s.cur.slm0.getD x.slm }
  let r := BitVec.ofNat 512 (x.slmRd (slma.toNat * 64) 64)
  (r, descCode (s.part (lPart x.lrec)).regions r)

/-- CDESC (R236): at the sequencer SLM_RANGE is checked, and a speculative run waits where the record covers LAUNCHID or a don't-care
argument word: CDESC loads from SLM as an S slot does (R14, R309, R318); each die sets its slot from the sideband. -/
def execCdesc (ds : BitVec 6) (slma : BitVec 12) (s : State) : Host.Outcome State Fault Refusal :=
  .next (match s.cur.side with
    | .seq =>
      if s.slmSize < slma.toNat * 64 + 64 then s.takeTrap { cause := 0x0006 }
      else if s.cx.specSlm (slma.toNat * 64) 64 then s.stall
      else s
    | .die =>
      let r := ((s.cur.pkt.map (·.desc)).getD none).getD (s.descAt slma)
      s.updDx fun y =>
        { y with descs := Tbl.set {} y.descs ds.toNat { record := if r.2 == 0 then some r.1 else none, code := r.2 }
                 bad := y.bad.filter (· != .desc ds.toNat) })

/-! ### Boxes (R237) -/

/-- The signed origins o0 to o4 of XO. -/
def boxO (x : W64) : List Int :=
  [sx 24 (bf x 23 0), sx 16 (bf x 39 24), sx 12 (bf x 51 40), sx 6 (bf x 57 52), sx 6 (bf x 63 58)]
/-- The sizes b0 to b4 of XB. -/
def boxB (x : W64) : List Nat :=
  [bf x 19 0 + 1, bf x 31 20 + 1, bf x 37 32 + 1, bf x 41 38 + 1, bf x 45 42 + 1]
/-- TOFF in bytes. -/
def boxT (x : W64) : Nat := bf x 63 46 * 64

def boxSize (x : W64) : Nat := (boxB x).foldl (· * ·) 1

/-- COPY_BOX (R239). -/
def boxBad (r : BitVec 512) (xo xb : W64) : Bool :=
  (dims.any fun d => dNdim r ≤ d && ((boxO xo).getD d 0 != 0 || (boxB xb).getD d 0 != 1)) ||
    (dBulk r && (((dEsz r : Int) * (boxO xo).getD 0 0) % 64 != 0 || dEsz r * (boxB xb).getD 0 0 % 64 != 0))

/-- The origins after the die split (R237). -/
def splitO (c : Cmd) : List Int :=
  let o := boxO c.xo
  let adv (d : Nat) : List Int := o.modify d fun v => v + (c.dieIdx : Int) * ((boxB c.xb).getD d 0 : Nat)
  match c.dsel with
  | .none => o
  | .outer => adv (dNdim c.desc - 1)
  | .dim0 => adv 0

/-- The position of a linear index in a box. -/
def coords : List Nat → Nat → List Nat
  | [], _ => []
  | b :: bs, k => k % b :: coords bs (k / b)

/-- The element index o + j of box position k in each dimension. -/
def Cmd.elem (c : Cmd) (k : Nat) : List Int :=
  List.zipWith (fun (o : Int) (j : Nat) => o + (j : Int)) (splitO c) (coords (boxB c.xb) k)

/-- A pad position (R220). -/
def Cmd.isPad (c : Cmd) (k : Nat) : Bool :=
  ((c.elem k).zipIdx.take (dNdim c.desc)).any fun e => e.1 < 0 || (dExt c.desc e.2 : Int) ≤ e.1

/-- The virtual address of an element (R217). -/
def Cmd.va (c : Cmd) (k : Nat) : Nat :=
  ((dBase c.desc : Int) + dEsz c.desc * isum ((c.elem k).zipIdx.map fun e => e.1 * dStride c.desc e.2)).toNat

/-- The tile byte of position k (R237). -/
def Cmd.tbyte (c : Cmd) (k : Nat) : Nat := boxT c.xb + dEsz c.desc * k

/-! ### Issue of copies (R211, R212, R238 to R240) -/

/-- A command that the limit of 512 and CSTAT count (R238, R244). -/
def Cmd.counted (c : Cmd) : Bool :=
  match c.kind with
  | .copyIn | .copyOut | .mcast _ _ | .flush _ | .packet _ _ _ _ => true
  | .perm _ _ => false

/-- A command that a C slot of the die issued. -/
def Cmd.ofSlot (c : Cmd) : Bool :=
  match c.kind with
  | .copyIn | .copyOut | .mcast _ _ | .flush _ => true
  | .perm _ _ | .packet _ _ _ _ => false

def Die.inFlight (y : Die) : Nat := (y.cmds.filter Cmd.counted).length

/-- A command of the slot in progress, with its private copies. Its limit is taken after the LD and SD slots of its own bundle have queued
their accesses, so a CFLUSH covers those too: the model's choice, R242 says "every earlier global access" (log 21). -/
def State.newCmd (s : State) (k : CmdK) (tout : Tok) : Cmd :=
  { bsn := s.pbsn, addr := s.paddr, kind := k, tout := tout, tile := 0, desc := 0, xo := 0, xb := 0,
    dieIdx := s.dieIdx s.cur.die, dsel := .none, started := false, limit := s.dx.accSeq, buf := none, slot := s.cur.slot,
    field := s.curField, scw := (s.cur.pkt.map (·.words)).getD [], present := s.present, detached := false }

/-- The record of a descriptor slot. -/
def Die.desc (y : Die) (ds : BitVec 6) : Option (BitVec 512) := (Tbl.get {} y.descs ds.toNat).record

/-- DESC_INVALID, DESC_DIR and COPY_BOX, in this order (R239). -/
def descCause (r : Option (BitVec 512)) (dir : Nat) (xo xb : W64) : Option (BitVec 16) :=
  match r with
  | none => some 0x010C
  | some r => if dDir r &&& dir == 0 then some 0x010D else if boxBad r xo xb then some 0x010E else none

/-- TILE_BOUNDS of a copy (R239): beyond the tile, and so on any undefined tile. -/
def boundsBad (t : Tile) (r : BitVec 512) (xb : W64) : Bool := t.bytes < boxT xb + dEsz r * boxSize xb

/-- A tile that a fill waits for (R211). -/
def Tile.fillWaits (t : Tile) : Bool := t.st == .filling || t.st == .draining || t.busy || t.pend

/-- A fill's issue: the tile is EMPTY with PEND, owned by the fill's token (R211). -/
def Die.fillIssue (y : Die) (c : Cmd) : Die :=
  { (y.updTile (BitVec.ofNat 8 c.tile) fun t => { t with st := .empty, pend := true, ownv := true, owner := c.tout }).setTok
      c.tout true with cmds := y.cmds ++ [c] }

/-- A drain's issue: the tile is DRAINING, owned by the drain's token (R211). -/
def Die.drainIssue (y : Die) (c : Cmd) : Die :=
  { (y.updTile (BitVec.ofNat 8 c.tile) fun t => { t with st := .draining, ownv := true, owner := c.tout }).setTok c.tout true with
    cmds := y.cmds ++ [c] }

/-- CCOPY.in: a fill (R211, R238, R239). -/
def execCcopyIn (a : CopyA) (s : State) : Host.Outcome State Fault Refusal :=
  let y := s.y0
  let t := y.tile a.tn
  let xo := s.px a.xo
  let xb := s.px a.xb
  let r := (y.desc a.ds).getD 0
  let c := { s.newCmd .copyIn a.tout with tile := a.tn.toNat, desc := r, xo := xo, xb := xb, dsel := a.dsel }
  .next (
    if y.tokWait a.tout (Toks.named a.tin) || 512 ≤ y.inFlight || t.fillWaits then s.stall
    else match descCause (y.desc a.ds) 1 xo xb with
      | some f => s.dieFault f 0 []
      | none => if boundsBad t r xb then s.dieFault 0x0102 0 [] else s.updDx fun y => y.fillIssue c)

/-- A drain of a speculative run with an element in the host or doorbell window (R309). -/
def State.specDrain (s : State) (d : Nat) (c : Cmd) : Bool :=
  s.specDie d && (upto (boxSize c.xb)).any fun k => !c.isPad k && s.specWindow d (c.va k)

/-- CCOPY.out: a drain (R211, R212, R238, R239). One to the host or doorbell window stalls in a speculative run (R309). -/
def execCcopyOut (a : CopyA) (s : State) : Host.Outcome State Fault Refusal :=
  let y := s.y0
  let t := y.tile a.tn
  let xo := s.px a.xo
  let xb := s.px a.xb
  let r := (y.desc a.ds).getD 0
  let c := { s.newCmd .copyOut a.tout with
    tile := a.tn.toNat, desc := r, xo := xo, xb := xb, dsel := a.dsel, started := true }
  .next (
    if y.tokWait a.tout (Toks.named a.tin) || 512 ≤ y.inFlight || t.st == .filling || (t.st == .empty && t.pend) then s.stall
    else match descCause (y.desc a.ds) 2 xo xb with
      | some f => s.dieFault f 0 []
      | none =>
        if t.st == .empty then s.dieFault 0x0101 0 []
        else if boundsBad t r xb then s.dieFault 0x0102 0 []
        else if s.specDrain s.cur.die c then s.stall
        else s.updDx fun y => y.drainIssue c)

/-- The consumed tokens of a CMCAST (R234). -/
def McastA.named (a : McastA) : List Tok :=
  (if a.tv.getLsbD 0 then [a.t0] else []) ++ (if a.tv.getLsbD 1 then [a.t1] else [])

/-- The gang dies of a die's driver, and its issue set. -/
def State.dieGang (s : State) (d : Nat) : List Nat := (s.driver d).elim [d] s.gangDies
def State.dieIssueSet (s : State) (d : Nat) : List Nat := (s.driver d).elim [d] s.issueSet

/-- In a rewind a replayed multicast is of the faulted dies, and one that is not replayed of the others (R386). -/
def State.mcastTakes (s : State) (d : Nat) : Bool :=
  match s.cur.pkt, (s.driver s.cur.die).bind fun c => (s.ctx c).seg.rewind with
  | some p, some r => if p.replay.isSome then r.faulted.contains d else r.upto ≤ p.bsn || r.beyond p || !r.faulted.contains d
  | _, _ => true

/-- The gang dies that a mask over gang die indexes names and that are enabled: by this die's DMASK for the dies of its own
stream, by their own for those of other streams (R214, R398). -/
def State.mcastDies (s : State) (mask : W64) : List Nat :=
  let d := s.cur.die
  let own := s.dieIssueSet d
  ((s.dieGang d).zipIdx.filter fun e =>
    mask.getLsbD e.2 && s.mcastTakes e.1 &&
      (if own.contains e.1 then s.maskBit s.dsrc.dmask e.1
       else s.maskBit (s.die e.1).regs.dmask e.1 && (s.die e.1).regs.qmask != 0)).map (·.1)

/-- CMCAST (R214, R240). Outside the mask its token is complete at issue, whatever a lower slot of the bundle does with it (R71). -/
def execCmcast (a : McastA) (s : State) : Host.Outcome State Fault Refusal :=
  let y := s.y0
  let t := y.tile a.tn
  let xo := s.px a.xo
  let xb := s.px a.xb
  let m := s.px a.xm
  let r := (y.desc a.ds).getD 0
  let ds := s.mcastDies m
  let mine := ds.contains s.cur.die
  let c := { s.newCmd (.mcast m ds) a.tout with tile := a.tn.toNat, desc := r, xo := xo, xb := xb }
  .next (
    if y.tokWait a.tout (McastA.named a) || 512 ≤ y.inFlight || (mine && t.fillWaits) then s.stall
    else match descCause (y.desc a.ds) 1 xo xb with
      | some f => s.dieFault f 0 []
      | none =>
        if m.toNat / 2 ^ (s.dieGang s.cur.die).length != 0 then s.dieFault 0x0106 0 []
        else if !mine then s.updDx fun y => y.setTok a.tout false
        else if boundsBad t r xb then s.dieFault 0x0102 0 []
        else s.updDx fun y => y.fillIssue c)

/-! ### The copy engine's accesses (R219, R220, R238, R260, R261) -/

/-- Why a copy stops: a failed translation, an uncorrectable error at a physical address, or a host access of a speculative
run. -/
inductive CopyErr where
  | xlat (va : Nat) (walk : BitVec 8)
  | poison (pa : Nat)
  | way (pa : Nat)
  | host
  deriving DecidableEq, Repr

/-- The translation of a die's engine. -/
def State.dieXlat (s : State) (d : Nat) : Xlat := (s.driver d).elim ⟨0, 0, false⟩ s.ctxXlat

/-- A byte as the engine of a die reads it: a dirty byte of the die's own cache ways, else the byte at home (R261). -/
def State.engByte (s : State) (d a : Nat) : Nat :=
  match (s.die d).cline a with
  | some l => if l.dirty.getLsbD (a % 128) then bf l.data (8 * (a % 128) + 7) (8 * (a % 128)) else (s.homeByte a).toNat
  | none => (if s.specDie d then (((s.die d).vitByte a).getD (s.homeByte a)) else s.homeByte a).toNat

def State.engRd (s : State) (d a : Nat) : Nat → Nat
  | 0 => 0
  | n + 1 => s.engByte d a + 256 * s.engRd d (a + 1) n

/-- The engine reads n bytes at a virtual address. It meets the error of a line of the ways where it takes bytes from there (R261, R381). -/
def State.copyRead (s : State) (d va n : Nat) : Except CopyErr Nat :=
  match s.translate (s.die d).tlb (s.dieXlat d) .load false va with
  | .error w => .error (.xlat va w)
  | .ok (pa, _) =>
    if s.specDie d && isHost pa then .error .host
    else if ((s.die d).cbad pa && (s.die d).dirtyIn pa n) || (s.specDie d && s.vitBad d pa) then .error (.way pa)
    else if s.poisonIn pa n then .error (.poison pa)
    else .ok (s.engRd d pa n)

/-- The engine writes n bytes at a virtual address. An element of a bulk copy is part of a 64-byte store, which the doorbell
window ignores (R195, R260). -/
def State.copyWrite (s : State) (d va n v : Nat) (bulk : Bool) : Except CopyErr State :=
  match s.translate (s.die d).tlb (s.dieXlat d) .store false va with
  | .error w => .error (.xlat va w)
  | .ok (pa, _) =>
    if s.specDie d then
      if isHost pa || isBell pa then .error .host
      else .ok ((s.driver d).elim s fun c => s.vitStore c d pa n v)
    else
      let t := if bulk then s.memWr pa n v else s.devWr (s.dieXlat d).job pa n v
      .ok (t.updDie d fun y => y.cacheUpdate pa n v)

/-- What a fill writes: tile byte and value of each position, from linear index k on (R220). -/
def State.fillData (s : State) (d : Nat) (c : Cmd) : Nat → Nat → Except CopyErr (List (Nat × Nat))
  | _, 0 => .ok []
  | k, n + 1 =>
    let rest := s.fillData d c (k + 1) n
    if c.isPad k then
      match rest with
      | .ok l => .ok (if dPadW c.desc then (c.tbyte k, dPadv c.desc % 2 ^ (8 * dEsz c.desc)) :: l else l)
      | .error e => .error e
    else
      match s.copyRead d (c.va k) (dEsz c.desc) with
      | .error e => .error e
      | .ok v =>
        match rest with
        | .ok l => .ok ((c.tbyte k, v) :: l)
        | .error e => .error e

/-- A drain's elements from linear index k on, in order; the bytes written before an error stay (R219, R239). -/
def State.drainData (d : Nat) (c : Cmd) : Nat → Nat → State → State × Option CopyErr
  | _, 0, s => (s, none)
  | k, n + 1, s =>
    if c.isPad k then State.drainData d c (k + 1) n s
    else
      let y := s.die d
      let t := y.tile (BitVec.ofNat 8 c.tile)
      match s.copyWrite d (c.va k) (dEsz c.desc) (s.tileRd y t (c.tbyte k) (dEsz c.desc)) (dBulk c.desc) with
      | .error e => (s, some e)
      | .ok u => State.drainData d c (k + 1) n u

/-! ### Progress and completion (R211, R214, R238, R239) -/

/-- Unstarted commands do not start while their context stops, is saved or is halted (R213, R368, R387). -/
def State.starts (s : State) (d : Nat) : Bool :=
  match s.driver d with
  | some c => let x := s.ctx c; !x.stopping && !x.swapped && !x.mcheck
  | none => true

/-- A command of the same multicast, not yet read: of the same mask, and of the same bundle on a die of the same stream (R214). -/
def sameMcast (own : Bool) (c e : Cmd) : Bool :=
  match c.kind, e.kind with
  | .mcast m _, .mcast n _ => m == n && e.buf.isNone && (!own || c.bsn == e.bsn)
  | _, _ => false

/-- The command of die e that belongs to the multicast of command c of die d. -/
def State.mate (s : State) (d : Nat) (c : Cmd) (e : Nat) : Cmd → Bool := sameMcast ((s.dieIssueSet d).contains e) c

/-- In a gang of several streams the multicasts of one mask are read in the order of their issue. -/
def State.mcastTurn (s : State) (d idx : Nat) (c : Cmd) (ds : List Nat) : Bool :=
  ds.all (s.dieIssueSet d).contains || !((s.die d).cmds.take idx).any (sameMcast false c)

/-- Every lane store of an earlier bundle of the die has been performed: what an engine command waits for before it reads (R261). -/
def Die.storesDone (y : Die) (bsn : BitVec 48) : Bool :=
  let past (a : GAcc) : Bool := decide (a.bsn < bsn) && (match a.op with | .load => false | _ => true)
  !y.gq.any past && !(y.ring.any fun e => past e.2.acc) && !y.heldLanes.any fun e => past e.acc

/-- An engine command faults with GLOBAL_FAULT: a fill leaves the tile EMPTY, the token stays PEND, and a replay restarts the
command (R239, R355). -/
def State.copyFault (s : State) (d : Nat) (c : Cmd) (va : Nat) (w : BitVec 8) : State :=
  s.raiseDie d
    { bsn := c.bsn, addr := c.addr, slot := c.slot, cause := 0x010A, data := va, lanes := [], walk := w, field := c.field,
      scw := c.scw, cmask := dropSlot c.present c.slot, redo := .cmd { c.fresh with buf := none } }

/-- A fill's tile when its copy ends: READY with its data, or EMPTY (R211). -/
def Die.fillEnd (y : Die) (idx : Nat) (c : Cmd) (ok : Bool) : Die :=
  { y.updTile (BitVec.ofNat 8 c.tile) fun t =>
      { t with st := if ok then .ready else .empty, pend := false, ownv := t.ownv && t.owner != c.tout } with
    cmds := y.cmds.eraseIdx idx }

/-- A command of an earlier segment, which the rewind of this one does not issue again, starts again itself (R386). -/
def State.againLater (s : State) (d : Nat) (c : Cmd) : State :=
  if c.bsn < s.segEntry d then s.updDie d fun y => y.restartCmd { c with buf := none } else s

/-- What an engine error does once the command has left the engine: a die fault, the consumption of the error, or a discard
(R239, R309, R381). -/
def State.copyError (s : State) (d : Nat) (c : Cmd) (e : CopyErr) : State :=
  match e with
  | .xlat va w => s.copyFault d c va w
  | .poison pa => (s.againLater d c).diePoison d pa c.bsn
  | .way pa => (s.againLater d c).wayError d pa c.bsn
  | .host => (s.driver d).elim s fun x => s.discard x 62

/-- A lane of the die waits for the walk of a page that one of n elements from k on lies in: the element waits on that walk too (R364). -/
def State.copyWaits (s : State) (d : Nat) (c : Cmd) (k n : Nat) : Bool :=
  (s.die d).gq.any GAcc.walking && (upto n).any fun i => !c.isPad (k + i) && (s.die d).walkOn (c.va (k + i) / 65536)

/-- The lowest masked die may read the source of a multicast: every masked enabled die has issued it, so that every consumed token is complete
(R214), and its turn has come. -/
def State.mcastReads (s : State) (d idx : Nat) (c : Cmd) : Bool :=
  match c.kind with
  | .mcast _ ds =>
    ds.head? == some d && c.buf.isNone && s.starts d && (s.die d).storesDone c.bsn && s.mcastTurn d idx c ds &&
      ds.all fun e => (s.die e).cmds.any (s.mate d c e)
  | _ => false

/-- The lowest masked die reads what is left of the source of a multicast, and all of its dies receive the data (R214, R260). -/
def execCmcastReadStart (die idx : Nat) (s : State) : Host.Outcome State Fault Refusal :=
  .next (match (s.die die).cmds[idx]? with
    | some c =>
      match c.kind with
      | .mcast _ ds =>
        let n := boxSize c.xb - c.rpos
        if s.mcastReads die idx c && !s.copyWaits die c c.rpos n then
          match s.fillData die c c.rpos n with
          | .ok l =>
            ds.foldl (fun t d => t.updDie d fun y =>
              match y.cmds.findIdx? (s.mate die c d) with
              | some i =>
                { y with cmds := y.cmds.modify i fun e => { e with buf := some (c.part ++ l), desc := c.desc, xo := c.xo, xb := c.xb } }
              | none => y) s
          | .error e => (s.updDie die fun y => y.fillEnd idx c false).copyError die c e
        else s
      | _ => s
    | none => s)

/-- It reads the next n elements of it: they lie at the engine until it has read them all (R260). An element that meets an error is left to the
end of the read. -/
def State.mcastNext (s : State) (d idx : Nat) (c : Cmd) (n : Nat) : State :=
  if !s.mcastReads d idx c || boxSize c.xb ≤ c.rpos || s.copyWaits d c c.rpos n then s
  else match s.fillData d c c.rpos n with
    | .ok l => s.updDie d fun y => { y with cmds := y.cmds.set idx { c with rpos := c.rpos + n, part := c.part ++ l } }
    | .error _ => s

/-- Writes a fill's data to its tile. -/
def State.fillTile (s : State) (d : Nat) (c : Cmd) (l : List (Nat × Nat)) : Die :=
  let y := s.die d
  let t := y.tile (BitVec.ofNat 8 c.tile)
  l.foldl (fun y e => s.tileWr y t e.1 (dEsz c.desc) e.2) y

/-- The next n elements that a fill moves: a multicast's from what it has read, else from home. -/
def State.fillNext (s : State) (d : Nat) (c : Cmd) (n : Nat) : Except CopyErr (List (Nat × Nat)) :=
  match c.buf with
  | some l => .ok ((l.drop c.pos).take n)
  | none => s.fillData d c c.pos n

/-- A started fill ends: it reads what is left of its source at home and writes its tile, which becomes READY; its token completes (R211,
R238; log 5). It has seen every lane store of an earlier bundle (R261). -/
def State.finishFill (s : State) (d idx : Nat) (c : Cmd) : State :=
  if c.buf.isNone && (!(s.die d).storesDone c.bsn || s.copyWaits d c c.pos (boxSize c.xb - c.pos)) then s
  else
    match s.fillNext d c (boxSize c.xb - c.pos) with
    | .ok l => s.setDie d (((s.fillTile d c l).fillEnd idx c true).endTok c.bsn c.slot c.tout)
    | .error e => (s.updDie d fun y => y.fillEnd idx c false).copyError d c e

/-- The tokens of the other drains of a tile in flight, besides number idx, in the order of their issue. -/
def Die.otherDrains (y : Die) (idx tile : Nat) : List Tok :=
  ((y.cmds.eraseIdx idx).filter fun c => c.tile == tile && (match c.kind with | .copyOut => true | _ => false)).map (·.tout)

/-- A tile that loses the drain of a token: READY after the last one; where it owned the tile, the last one still in flight does (R209,
R211). -/
def Tile.undrained (t : Tile) (tout : Tok) (rest : List Tok) : Tile :=
  let u : Tile := if rest.isEmpty then { t with st := .ready } else t
  if t.owner != tout then u
  else match rest.getLast? with
    | some o => { u with owner := o }
    | none => { u with ownv := false }

/-- A drain leaves the engine. -/
def Die.drainEnd (y : Die) (idx : Nat) (c : Cmd) : Die :=
  { y.updTile (BitVec.ofNat 8 c.tile) fun t => t.undrained c.tout (y.otherDrains idx c.tile) with cmds := y.cmds.eraseIdx idx }

/-- A drain ends: the elements that it has still to move are written at home in order (R219, R238; log 5), after every lane store of an
earlier bundle (R261). A run's drain to the host or the doorbell waits for the claim, or goes with the run (R309, R317). An error of the vault is consumed. -/
def State.finishDrain (s : State) (d idx : Nat) (c : Cmd) : State :=
  let y := s.die d
  let t := y.tile (BitVec.ofNat 8 c.tile)
  if !y.storesDone c.bsn || s.copyWaits d c c.pos (boxSize c.xb - c.pos) then s
  else if s.tileBad y t (c.tbyte c.pos) (dEsz c.desc * (boxSize c.xb - c.pos)) then
    ((s.updDie d fun y => y.drainEnd idx c).againLater d c).vaultConsume d d
      (s.tileGrans y t (c.tbyte c.pos) (dEsz c.desc * (boxSize c.xb - c.pos))) c.bsn
  else
    match State.drainData d c c.pos (boxSize c.xb - c.pos) s with
    | (u, none) => u.updDie d fun y => (y.drainEnd idx c).endTok c.bsn c.slot c.tout
    | (_, some .host) => if s.dying d then s.updDie d fun y => y.drainEnd idx c else s.dieStalls d
    | (u, some (.xlat va w)) => (u.updDie d fun y => { y with cmds := y.cmds.eraseIdx idx }).copyFault d c va w
    | (u, some e) => (u.updDie d fun y => y.drainEnd idx c).copyError d c e

/-- A started command moves its next element, or unit of 64 bytes of a bulk copy (R253, R260): overlapping commands, and the lanes, see it
when it is moved. An element that meets an error is left to the command's end. -/
def State.moveNext (s : State) (d idx : Nat) (c : Cmd) : State :=
  let n := if dBulk c.desc then 64 / dEsz c.desc else 1
  let next : Cmd := { c with pos := c.pos + n }
  let t := (s.die d).tile (BitVec.ofNat 8 c.tile)
  match c.kind with
    | .copyIn | .mcast _ _ =>
      if boxSize c.xb ≤ c.pos then s
      else if c.buf.isNone && (!(s.die d).storesDone c.bsn || s.copyWaits d c c.pos n) then s
      else match s.fillNext d c n with
        | .ok l => s.setDie d { s.fillTile d c l with cmds := (s.die d).cmds.set idx next }
        | .error _ => s
    | .copyOut =>
      if boxSize c.xb ≤ c.pos then s
      else if !(s.die d).storesDone c.bsn || s.copyWaits d c c.pos n || s.tileBad (s.die d) t (c.tbyte c.pos) (n * dEsz c.desc) then s
      else match State.drainData d c c.pos n s with
        | (u, none) => u.updDie d fun y => { y with cmds := y.cmds.set idx next }
        | _ => s
    | _ => s

/-- A pending fill starts (R211); a multicast once its source has been read. The same step on a command that has started, or on a multicast whose
source is being read, moves one element of it (R260; log 5). -/
def execFillStart (die idx : Nat) (s : State) : Host.Outcome State Fault Refusal :=
  .next (match (s.die die).cmds[idx]? with
    | some c =>
      let go := !c.started && s.starts die &&
        (match c.kind with
         | .copyIn => true
         | .mcast _ _ => c.buf.isSome
         | _ => false)
      if go then s.updDie die fun y =>
        { y.updTile (BitVec.ofNat 8 c.tile) fun t => { t with st := .filling, pend := false } with
          cmds := y.cmds.set idx { c with started := true } }
      else if c.started then s.moveNext die idx c
      else s.mcastNext die idx c (if dBulk c.desc then 64 / dEsz c.desc else 1)
    | none => s)

/-- A fill completes (R238). -/
def execCopyFillComplete (die idx : Nat) (s : State) : Host.Outcome State Fault Refusal :=
  .next (match (s.die die).cmds[idx]? with
    | some c =>
      (match c.kind with
       | .copyIn | .mcast _ _ => if c.started && !c.detached then s.finishFill die idx c else s
       | _ => s)
    | none => s)

/-- A drain completes (R238). -/
def execCopyDrainComplete (die idx : Nat) (s : State) : Host.Outcome State Fault Refusal :=
  .next (match (s.die die).cmds[idx]? with
    | some c =>
      (match c.kind with
       | .copyOut => if c.started && !c.detached then s.finishDrain die idx c else s
       | _ => s)
    | none => s)

/-! ### Tiles (R211, R241) -/

/-- TDEF, TREL and TCFG wait for a tile in use (R211). -/
def Tile.inUse (t : Tile) : Bool := t.pend || t.busy || t.st == .filling || t.st == .draining

def execTdef (tn : BitVec 8) (offs : BitVec 16) (size : BitVec 13) (swz keep : Bool) (s : State) :
    Host.Outcome State Fault Refusal :=
  .next (
    if (s.y0.tile tn).inUse then s.stall
    else if s.padSize s.cur.die < offs.toNat * 4096 + size.toNat * 4096 then s.dieFault 0x0102 0 []
    else s.updDx fun y =>
      { y.setTile tn { y.tile tn with st := if keep then .ready else .empty, swz := swz, size := size, off := offs } with
        bad := y.bad.filter (· != .tile tn.toNat) })

def execTrel (tn : BitVec 8) (s : State) : Host.Outcome State Fault Refusal :=
  .next (if (s.y0.tile tn).inUse then s.stall
    else s.updDx fun y => y.updTile tn fun t => { t with st := .empty, size := 0 })

/-- TCFG: the tile is EMPTY in its new layout; the bytes of the scratchpad follow R202 (R210). -/
def execTcfg (tn : BitVec 8) (swz : Bool) (s : State) : Host.Outcome State Fault Refusal :=
  .next (if (s.y0.tile tn).inUse then s.stall
    else s.updDx fun y => y.updTile tn fun t => { t with st := .empty, swz := swz })

/-! ### CFLUSH, CSPLIT, CSTAT (R201, R242 to R244) -/

def execCflush (tout : Tok) (tin : Toks) (inv : Bool) (s : State) : Host.Outcome State Fault Refusal :=
  let y := s.y0
  .next (
    if y.tokWait tout (Toks.named tin) || 512 ≤ y.inFlight then s.stall
    else s.updDx fun y => { y.setTok tout true with cmds := y.cmds ++ [s.newCmd (.flush inv) tout] })

/-- Every global lane access numbered below a limit has been performed (R242, R256). -/
def Die.accDone (y : Die) (limit : Nat) : Bool :=
  y.gq.all (fun a => limit ≤ a.sn) && y.ring.all (fun e => limit ≤ e.2.acc.sn) && y.heldLanes.all (fun e => limit ≤ e.acc.sn)

/-- Writes back every dirty line of a die (R242, R268). -/
def State.flushDie (s : State) (d : Nat) (inv : Bool) : State :=
  let t := (s.die d).cache.foldl (fun t l => t.cleanLine d l.line) s
  if inv then t.updDie d fun y => { y with cache := [], cpoison := [] } else t

/-- A CFLUSH completes (R242). -/
def execCflushComplete (die idx : Nat) (s : State) : Host.Outcome State Fault Refusal :=
  .next (match (s.die die).cmds[idx]? with
    | some c =>
      (match c.kind with
       | .flush inv =>
         if (s.die die).accDone c.limit then
           (s.flushDie die inv).updDie die fun y => { y.endTok c.bsn c.slot c.tout with cmds := y.cmds.eraseIdx idx }
         else s
       | _ => s)
    | none => s)

/-- Every earlier LD, SD, C and M slot of the die has completed (R243). -/
def Die.slotsDone (y : Die) (bsn : BitVec 48) : Bool :=
  y.flights.all (fun f => !f.load || f.bsn == bsn) && y.gq.all (·.bsn == bsn) && y.rq.all (·.bsn == bsn) && y.ring.isEmpty &&
    y.heldLanes.isEmpty && y.mmuls.all (·.bsn == bsn) && (y.cmds.all fun c => !c.ofSlot || c.bsn == bsn) &&
    y.mq.all fun i => match i with | .load b _ _ _ _ _ _ => b == bsn | .zero _ => true

/-- The code of a CSPLIT to w ways: the first failing condition (R201). It sees the BUSY that an MLDS of its own bundle sets: R70 speaks of
registers that a slot names, and CSPLIT names no tile; the model's choice (log 21). -/
def State.splitCode (s : State) (w : Nat) : Nat :=
  let y := s.dx
  if !y.cache.isEmpty then 1
  else if y.tiles.any fun e => e.2.inUse || (e.2.size != 0 && w * s.wayBytes < e.2.base + e.2.bytes) then 2
  else if 15 < w then 3 else 0

def execCsplit (nw : BitVec 5) (s : State) : Host.Outcome State Fault Refusal :=
  let k := s.splitCode nw.toNat
  .next (
    if !s.dx.slotsDone s.pbsn then s.stall
    else if k == 0 then s.updDx fun y =>
      { y with w := BitVec.ofNat 4 nw.toNat, wcode := 0, vault := y.vault.filter fun e => e.1 < nw.toNat * s.wayBytes,
               vpoison := y.vpoison.filter (· < nw.toNat * s.wayBytes) }
    else s.updDx fun y => { y with wcode := k })

/-- A tile entry as a word (R209). OWNER reads zero while OWNV is 0, where the spec gives it no value: the model's choice (log 21). -/
def Tile.word (t : Tile) : W64 :=
  let st := match t.st with
    | .empty => 0
    | .filling => 1
    | .ready => 2
    | .draining => 3
  w64 (at' 62 2 st + at' 61 1 (b2n t.pend) + at' 60 1 (b2n t.busy) + at' 59 1 (b2n t.swz) + at' 58 1 (b2n t.ownv)
    + at' 52 6 (if t.ownv then t.owner.toNat else 0) + at' 36 13 t.size.toNat + at' 12 16 t.off.toNat)

/-- The word that CSTAT writes (R244). -/
def Die.statWord (y : Die) : CStatK → W64
  | .tile t => (y.tile t).word
  | .desc d => let e := Tbl.get {} y.descs d.toNat; w64 (at' 63 1 (b2n e.record.isSome) + at' 0 4 e.code)
  | .split => w64 (at' 4 4 y.wcode + y.w.toNat)
  | .copy => w64 y.inFlight

def execCstat (dc : BitVec 2) (k : CStatK) (s : State) : Host.Outcome State Fault Refusal :=
  .next (s.fly 0 0 [(dc.toNat, s.y0.statWord k)] [] [])

/-! ### Lines written back or dropped at any time (R251) -/

/-- A die writes back a dirty line (R251). -/
def execCacheLineWriteback (die pa : Nat) (s : State) : Host.Outcome State Fault Refusal := .next (s.cleanLine die (pa / 128))

/-- A die drops a clean line (R251). -/
def execCacheLineDrop (die pa : Nat) (s : State) : Host.Outcome State Fault Refusal :=
  .next (match (s.die die).cline pa with
    | some l => if l.dirty == 0 then s.dropLine die (pa / 128) else s
    | none => s)

end Sys2Proof.Machine
end

