-- ==== Sys2Proof/Machine/Sync.lean ====
section
/-! DEFINITION. Tokens, fences, signals, bollards, the mailbox and the two logs (R249 to R270, R321 to R341): the Y-slot instructions
of file 15 but for the system registers and the purser's own, and the steps of the bollard unit. An instruction that acts at the
sequencer and at the dies has one meaning for each side (R324). -/

namespace Sys2Proof.Machine

/-! ### Gathered reports (R256, R407) -/

/-- A bundle of the replay: it was issued before the rewind, and does not lie beyond the RV bundle (R386, step 3). -/
def Rewind.covers (r : Rewind) (bsn : BitVec 48) : Bool :=
  r.replaying && bsn < r.upto &&
    (match r.expect with
     | some (b, _) => bsn ≤ b
     | none => true)

/-- The dies that report for the bundle in progress: those of the issue set, a disabled one with its earlier accesses and no term, and
only the faulted ones while a segment is replayed (R386, R407). -/
def State.reporters (s : State) : List Nat :=
  let x := s.cx
  let ds := s.issueSet s.cur.ctx
  match x.seg.rewind with
  | some r => if r.covers x.bsn then ds.filter r.faulted.contains else ds
  | none => ds

/-- The port counts that a release of a scope waits for (R270). -/
def State.portsAt (s : State) (sc : Scope) : List (Nat × Nat × Nat) :=
  match sc with
  | .pod | .sys => s.unacked
  | _ => []

/-- Starts a gathering operation of the bundle in progress. -/
def State.gather (s : State) (k : GKind) (ports : List (Nat × Nat × Nat)) : State :=
  s.updCx fun x =>
    { x with gathers := x.gathers ++ [{ bsn := x.bsn, kind := k, dies := s.reporters, rm := x.rm, goc := x.goc, ports := ports }] }

/-- Nothing later issues until the wait ends. -/
def State.waitFor (s : State) (w : Wait) : State := s.updCx fun x => { x with wait := w }

/-- A die reports for the gathering operation of the bundle in progress, if it is one of the dies that report. -/
def State.report (s : State) (r : Rep) : State :=
  match s.driver s.cur.die with
  | some c =>
    if (s.ctx c).gathers.any fun g => g.bsn == r.bsn && g.dies.contains s.cur.die then
      s.updDx fun y => { y with reps := y.reps ++ [r] }
    else s
  | none => s

/-- A report once the accesses issued so far are performed. A disabled die waits for nothing of the bundle, but its earlier accesses are
still covered (R407). -/
def State.rep (s : State) (enabled : Bool) (term term2 : W64) (log : List FeLog) : Rep :=
  { bsn := s.pbsn, limit := s.dx.accSeq, enabled := enabled, term := term, term2 := term2, log := log }

/-- Every lane access of a die numbered below a limit has been performed (R255). -/
def Die.fenceDone (y : Die) (limit : Nat) : Bool := y.accDone limit && y.rq.all fun a => limit ≤ a.sn

/-- The reports of a gathering operation are in and the accesses they cover performed. -/
def State.reported (s : State) (g : Gather) : Bool :=
  g.ports.all (·.2.2 == 0) &&
    g.dies.all fun d => (s.die d).reps.any fun r => r.bsn == g.bsn && (s.die d).fenceDone r.limit

/-- The sequencer's accesses before a bundle have been performed, its signal operations among them (R252, R330). -/
def Ctx.portDone (x : Ctx) (bsn : BitVec 48) : Bool :=
  x.port.all (fun a => bsn ≤ a.bsn) && x.gathers.all fun g => !g.isSig || bsn ≤ g.bsn

/-- The report of each die for an operation. -/
def State.repsOf (s : State) (g : Gather) : List Rep :=
  g.dies.filterMap fun d => (s.die d).reps.find? fun r => r.bsn == g.bsn

/-- Ends a gathering operation: it and its reports are gone. -/
def State.endGather (s : State) (c : Nat) (g : Gather) : State :=
  let s1 := s.updCtx c fun x => { x with gathers := x.gathers.filter (·.bsn != g.bsn) }
  g.dies.foldl (fun t d => t.updDie d fun y => { y with reps := y.reps.filter (·.bsn != g.bsn) }) s1

/-! ### TWAIT and FENCE (R327, R329) -/

/-- TWAIT holds the die's later bundles until every token it names is DONE (R327). The wait looks at the tokens as they are from then on, so a
token that an engine slot of TWAIT's own bundle sets PEND is waited for too: DESIGN CHOICE (log 22), R70 having the slots of a bundle read
their tokens as before it. -/
def execTwait (tin : Toks) (s : State) : Host.Outcome State Fault Refusal :=
  .next (match s.cur.side with
    | .seq => s
    | .die => s.updDx fun y => { y with twait := y.twait ++ Toks.named tin })

/-- FENCE (R256, R329): at die scope each die holds its later bundles; at wider scope the sequencer waits for its own earlier
accesses, then for the dies' reports. -/
def execFence (sc : Scope) (s : State) : Host.Outcome State Fault Refusal :=
  .next (match s.cur.side, sc with
    | .seq, .die => s
    | .seq, _ =>
      if s.portBusy then s.stall
      else (s.gather (.fence sc) (s.portsAt sc)).waitFor (.gather s.cx.bsn)
    | .die, .die => s.updDx fun y => { y with fence := some y.accSeq }
    | .die, _ => s.report (s.rep true 0 0 []))

/-! ### Bollards (R263 to R266, R328) -/

/-- The bollard a region is bound to (R215, R266). -/
def Ctx.bollardOf (x : Ctx) (region : Nat) : Option Nat := (x.bound.find? (·.region == region)).map (·.addr)

/-- Whether a context holds or has requested a bollard. -/
def Ctx.hasBollard (x : Ctx) (a : Nat) : Bool := x.held.contains a || x.asked.any (·.1 == a)

def State.bollard? (s : State) (a : Nat) : Option Bollard := Tbl.get? s.bollards a
def State.updBollard (s : State) (a : Nat) (f : Bollard → Bollard) : State :=
  match s.bollard? a with
  | some b => { s with bollards := s.bollards.put a (f b) }
  | none => s

/-- The 128-byte line holds bytes of a region's virtual range on the 64 KiB page at `page` (R265). -/
def State.lineOnPage (s : State) (x : Xlat) (line base size page : Nat) : Bool :=
  match s.leaf [] x (page * 65536) with
  | .ok e =>
    let pa := e.pa (page * 65536)
    let off := line * 128 - pa
    let va := page * 65536 + off
    pa ≤ line * 128 && line * 128 < pa + 65536 && base < va + 128 && va < base + size
  | .error _ => false

/-- The line holds bytes of a region of the context's table. -/
def State.lineIn (s : State) (x : Xlat) (line : Nat) (e : BitVec 256) : Bool :=
  let b := rgBase e
  let n := rgSize e
  n != 0 && (upto ((b + n - 1) / 65536 + 1 - b / 65536)).any fun i => s.lineOnPage x line b n (b / 65536 + i)

/-- The entries of the regions that a launch binds to a bollard. -/
def State.boundRegions (s : State) (c a : Nat) : List (BitVec 256) :=
  let x := s.ctx c
  (x.bound.filter (·.addr == a)).map fun b => Tbl.get 0 (s.part (lPart x.lrec)).regions b.region

/-- The lines of a die that lie in the regions bound to a bollard. -/
def State.boundLines (s : State) (c d a : Nat) : List Nat :=
  let rs := s.boundRegions c a
  ((s.die d).cache.filter fun l => rs.any fun e => s.lineIn (s.ctxXlat c) l.line e).map (·.line)

/-- Invalidates a die's lines of the bound regions, its dirty bytes written back (R255, R264). -/
def State.invBound (s : State) (c d a : Nat) : State :=
  (s.boundLines c d a).foldl (fun t l => (t.cleanLine d l).dropLine d l) s

/-- Writes back a die's dirty lines of the bound regions (R265). -/
def State.cleanBound (s : State) (c d a : Nat) : State :=
  (s.boundLines c d a).foldl (fun t l => t.cleanLine d l) s

/-- The unit shows a context as a holder (R264). -/
def State.granted (s : State) (c a : Nat) : Bool :=
  match s.bollard? a with
  | some b => b.excl == some c || b.shared.contains c
  | none => false

/-- The gather of a context's BREL of the bollard at an address. -/
def Ctx.brelOf (x : Ctx) (addr : Nat) : Option Gather :=
  x.gathers.find? fun g =>
    match g.kind with
    | .brel r => x.bollardOf r == some addr
    | _ => false

/-- The BACQ of a bundle is granted: the unit shows the context as a holder, and not from before a BREL that precedes it (R265). -/
def State.grantedAt (s : State) (c a : Nat) (bsn : BitVec 48) : Bool :=
  s.granted c a && (s.ctx c).gathers.all fun g =>
    match g.kind with
    | .brel r => (s.ctx c).bollardOf r != some a || bsn < g.bsn
    | _ => true

/-- BACQ (R264, R266, R328): the checks BOLLARD_UNBOUND and BOLLARD_STATE, the request and the wait; each die invalidates its lines
once the grant is there. -/
def execBacq (shared : Bool) (region : BitVec 7) (s : State) : Host.Outcome State Fault Refusal :=
  .next (match s.cur.side with
    | .seq =>
      if s.cx.isSpec then s.stall
      else match s.cx.bollardOf region.toNat with
      | none => s.takeTrap { cause := 0x000C }
      | some a =>
        if s.cx.hasBollard a then s.takeTrap { cause := 0x000D }
        else if s.cx.commitWaits then s.stall
        else
          let s1 := s.updBollard a fun b => { b with reqs := b.reqs ++ [(s.cur.ctx, !shared)] }
          ((s1.updCx fun x => { x with asked := some (a, !shared) }).waitFor (.grant a)).unrepeatable s.cur.ctx
    | .die =>
      match s.driver s.cur.die with
      | none => s
      | some c =>
        match (s.ctx c).bollardOf region.toNat with
        | none => s
        | some a => if s.grantedAt c a s.pbsn then s.invBound c s.cur.die a else s.updDx fun y => { y with bacq := some a })

/-- The first waiting request can be granted (R264). -/
def Bollard.canGrant (b : Bollard) : Bool :=
  match b.reqs with
  | [] => false
  | (_, ex) :: _ => b.excl.isNone && (!ex || b.shared.isEmpty)

/-- The unit with the first request granted. -/
def Bollard.grant (b : Bollard) : Bollard :=
  match b.reqs with
  | [] => b
  | (c, ex) :: r => { b with excl := if ex then some c else b.excl, shared := if ex then b.shared else b.shared ++ [c], reqs := r }

/-- The bollard unit grants the first request, not while a BREL of the same context that precedes it is in progress (R265): the dies that
have issued the BACQ invalidate the bound regions and go on, and so does the sequencer (R264). -/
def execBollardGrant (addr : Nat) (s : State) : Host.Outcome State Fault Refusal :=
  .next (match s.bollard? addr with
    | some b =>
      let c := (b.reqs.headD (0, false)).1
      if b.canGrant && ((s.ctx c).brelOf addr).isNone then
        let s1 := s.updBollard addr Bollard.grant
        let s2 := s1.updCtx c fun x =>
          { x with held := x.held ++ [addr], asked := none, wait := if x.wait == .grant addr then .none else x.wait }
        ((s.issueSet c).filter fun d => (s.die d).bacq == some addr).foldl
          (fun t d => (t.invBound c d addr).updDie d fun y => { y with bacq := none }) s2
      else s
    | none => s)

/-- BREL (R265, R266, R309, R328): it stalls in a speculative run; else the checks, then the dies' reports; the release itself is the
unit's step. -/
def execBrel (region : BitVec 7) (s : State) : Host.Outcome State Fault Refusal :=
  .next (match s.cur.side with
    | .seq =>
      if s.cx.isSpec then s.stall
      else match s.cx.bollardOf region.toNat with
      | none => s.takeTrap { cause := 0x000C }
      | some a =>
        if !s.cx.held.contains a then s.takeTrap { cause := 0x000D }
        else if s.cx.commitWaits then s.stall
        else
          ((s.gather (.brel region.toNat) []).updCx fun x => { x with held := x.held.filter (· != a) }).unrepeatable s.cur.ctx
    | .die => s.report (s.rep true 0 0 []))

/-- The unit releases a holder and adds 1 to RELSEQ (R265). -/
def Bollard.release (b : Bollard) (c : Nat) : Bollard :=
  { b with excl := if b.excl == some c then none else b.excl, shared := b.shared.filter (· != c), relseq := b.relseq + 1 }

/-- The steps of a BREL once dies and sequencer have performed their accesses: write-back, release (R265). -/
def execBollardRelease (addr ctx : Nat) (s : State) : Host.Outcome State Fault Refusal :=
  .next (match (s.ctx ctx).brelOf addr with
    | some g =>
      if s.reported g && (s.ctx ctx).portDone g.bsn then
        let s1 := g.dies.foldl (fun t d => t.cleanBound ctx d addr) s
        (s1.endGather ctx g).updBollard addr fun b => b.release ctx
      else s
    | none => s)

/-- After the last launch that binds it, the record is written back: FREE with the live RELSEQ (R263). -/
def execBollardWriteback (addr : Nat) (s : State) : Host.Outcome State Fault Refusal :=
  .next (match s.bollard? addr with
    | some b =>
      if b.writeback && b.binders == 0 then { s.memWr addr 64 b.relseq.toNat with bollards := s.bollards.del addr } else s
    | none => s)

/-! ### Signals (R267, R330, R331) -/

/-- After a signal operation the contexts that wait on the address evaluate again, and so do waiting barriers (R284, R331). -/
def State.notifySig (s : State) (pa : Nat) : State :=
  let cs := (s.ctxs.map (·.1)).filter fun c =>
    match (s.ctx c).wait with
    | .sig _ _ _ _ p _ => p == pa
    | _ => false
  let bs := (s.tasks.filter fun e => match e.2.kind with
    | .barrier _ => true
    | _ => false).map (·.2.berth)
  let s1 := cs.foldl (fun t c => t.post (.sigwaitPollTimer c)) s
  bs.foldl (fun t b => t.post (.barrierPollTimer b)) s1

/-- SIGADD (R330). -/
def execSigadd (sc : Scope) (xd xa xb : Reg) (s : State) : Host.Outcome State Fault Refusal :=
  .next (match s.cur.side with
    | .seq =>
      match s.gCheck .atomic true (s.x xa) 8 with
      | .error t => s.takeTrap t
      | .ok (pa, e) =>
        if s.cx.isSpec || s.cx.commitWaits then s.stall
        else
          let k := GKind.sigadd sc xd (s.x xa).toNat pa (s.x xb)
          (((s.cacheLeaf e).gather k (s.portsAt sc)).pendX xd).unrepeatable s.cur.ctx
    | .die => s.report (s.rep true 0 0 []))

/-- SIGST (R330). -/
def execSigst (sc : Scope) (xa xb : Reg) (s : State) : Host.Outcome State Fault Refusal :=
  .next (match s.cur.side with
    | .seq =>
      match s.gCheck .store true (s.x xa) 8 with
      | .error t => s.takeTrap t
      | .ok (pa, e) =>
        if s.cx.isSpec || s.cx.commitWaits then s.stall
        else
          let k := GKind.sigst sc (s.x xa).toNat pa (s.x xb)
          ((s.cacheLeaf e).gather k (s.portsAt sc)).unrepeatable s.cur.ctx
    | .die => s.report (s.rep true 0 0 []))

/-- The address of a signal operation in progress. -/
def Gather.sigPa (g : Gather) : Option Nat :=
  match g.kind with
  | .sigadd _ _ _ pa _ => some pa
  | .sigst _ _ pa _ => some pa
  | _ => none

/-- SIGWAIT (R331): XA is checked as SIGADD's is, the doorbell window being reserved to it; it waits, and evaluates at once. -/
def execSigwait (c : PCond) (sc : Scope) (xd xa xb : Reg) (s : State) : Host.Outcome State Fault Refusal :=
  .next (match s.cur.side with
    | .seq =>
      match s.gCheck .load true (s.x xa) 8 with
      | .error t => s.takeTrap t
      | .ok (pa, e) =>
        if s.cx.isSpec then s.stall
        else
          let w := Wait.sig c sc xd (s.x xa).toNat pa (s.x xb)
          (((s.cacheLeaf e).waitFor w).pendX xd).post (.sigwaitPollTimer s.cur.ctx)
    | .die => s)

/-- A context evaluates its wait: not while frozen, stopped or saved (R331, R425). -/
def State.evaluates (s : State) (c : Nat) : Bool :=
  let x := s.ctx c
  !x.frozen && !x.swapped && !x.stopping && !(c == purser && s.phalt)

/-- The context's own earlier accesses to a signal have been performed (R252). -/
def Ctx.sigClear (x : Ctx) (pa : Nat) : Bool :=
  x.port.all (fun a => !overlap pa 8 a.pa a.size) && x.gathers.all fun g => g.sigPa != some pa

/-- A SIGWAIT whose address an XINV has left without a translation walks again; with a translation it evaluates as before. While there is
none it goes on waiting: DESIGN CHOICE (log 22), the rules name no outcome for it (R331, R365). -/
def State.sigFind (s : State) (ctx : Nat) (k : PCond) (sc : Scope) (xd : Reg) (va : Nat) (v : W64) : State :=
  match s.translate (s.ctx ctx).tlb (s.ctxXlat ctx) .load true va with
  | .ok (pa, e) =>
    (s.updCtx ctx fun x => { x with wait := .sig k sc xd va pa v, tlb := tlbAdd s.xinvBusy x.tlb e }).post (.sigwaitPollTimer ctx)
  | .error _ => s

/-- A waiting SIGWAIT evaluates its condition with a strong load (R331). -/
def execSigwaitPollTimer (ctx : Nat) (s : State) : Host.Outcome State Fault Refusal :=
  .next (match (s.ctx ctx).wait with
    | .sig c _ xd _ pa v =>
      if s.evaluates ctx && (s.ctx ctx).sigClear pa then
        if s.poisonIn pa 8 then s.seqPoison ctx pa (s.ctx ctx).lastBsn
        else
          let w := w64 (s.homeRd pa 8)
          if PCond.holds c w v then (s.updCtx ctx fun x => { x with wait := .none }).deliverX ctx xd (s.ctx ctx).lastBsn w else s
      else s
    | .sigLost k sc xd va v => if s.evaluates ctx then s.sigFind ctx k sc xd va v else s
    | _ => s)

/-- The atomic of a SIGADD or SIGST whose reports are in (R330). -/
def State.sigDone (s : State) (c : Nat) (g : Gather) : State :=
  let s1 := s.endGather c g
  match g.kind with
  | .sigadd _ xd _ pa v =>
    if s.poisonIn pa 8 then s1.seqPoison c pa g.bsn
    else
      let old := w64 (s.homeRd pa 8)
      ((s1.homeWr pa 8 (old + v).toNat).deliverX c xd g.bsn old).notifySig pa
  | .sigst _ _ pa v => (s1.homeWr pa 8 v.toNat).notifySig pa
  | _ => s1

/-! ### YIELD, TRAP, MBOX (R334, R335, R337) -/

/-- An MBOX request without a reply (R337, R356). -/
def State.reqPend (s : State) (c : Nat) : Bool := (s.ctx c).mbox.isSome && (s.ctx c).mboxKept.isNone

/-- A valid retry entry or a held lane (R356, R359). -/
def State.rrPend (s : State) (p : Nat) : Bool := (s.die p).parked

/-- The TRAPPEND (0), REQPEND (1) and RRPEND (2) bits that are set, with their contexts (R356, R358). -/
def State.pendings (s : State) : List (Nat × Nat) :=
  (upto s.nparts).flatMap fun c =>
    (if (s.ctx c).trappend then [(0, c)] else []) ++ (if s.reqPend c then [(1, c)] else []) ++ if s.rrPend c then [(2, c)] else []

/-- A bit that a step from `s` has raised wakes the purser pair from a YIELD (R358). -/
def State.wakePurser (s t : State) : State :=
  if (t.ctx purser).wait == .rise && t.pendings.any fun e => !s.pendings.contains e then
    t.updCtx purser fun x => { x with wait := .none }
  else t

/-- YIELD: a pending pre-emption stops the context here (R334). The purser pair waits for a message: until a TRAPPEND, REQPEND or RRPEND
bit rises (R358), and not at all while one is set (log 21). -/
def execYield (s : State) : Host.Outcome State Fault Refusal :=
  .next (match s.cur.side with
    | .seq =>
      if s.cur.ctx == purser then (if s.pendings.isEmpty then s.waitFor .rise else s)
      else s.updCx fun x => if x.preempt then { x with stopping := true } else x
    | .die => s)

/-- TRAP raises USER_TRAP with its code (R335). -/
def execTrap (code : BitVec 16) (s : State) : Host.Outcome State Fault Refusal :=
  .next (match s.cur.side with
    | .seq => s.takeTrap { cause := 0x0010, ucode := code }
    | .die => s)

/-- MBOX posts a request; a second one waits for the first reply (R337). -/
def execMbox (xd xa xb : Reg) (s : State) : Host.Outcome State Fault Refusal :=
  .next (match s.cur.side with
    | .seq =>
      if s.cx.isSpec || s.cx.commitWaits || s.cx.mbox.isSome then s.stall
      else ((s.updCx fun x => { x with mbox := some ((xd, x.bsn), s.x xa, s.x xb) }).pendX xd).unrepeatable s.cur.ctx
    | .die => s)

/-- The purser pair alone issues a privileged instruction (R325): PRIVILEGED on any other context. -/
def State.privileged (s : State) (f : State) : State :=
  if s.cur.ctx == purser then f else s.takeTrap { cause := 0x000E }

/-- The partition number XA[6:0]; none where it does not exist in the mode (R337, R338). -/
def State.partNo (s : State) (v : W64) : Option Nat := if bf v 6 0 < s.nparts then some (bf v 6 0) else none

/-- A pre-emption is stopping the context, or has saved it (R368, R370). -/
def Ctx.away (x : Ctx) : Bool := x.preempt || x.saved || x.swapped

/-- `MBOX.reply`: the reply to the outstanding request of a partition's context; one that is pre-empted takes it when it is restored (R337). -/
def execMboxReply (xa xb : Reg) (s : State) : Host.Outcome State Fault Refusal :=
  .next (match s.cur.side with
    | .die => s
    | .seq =>
      s.privileged (match s.partNo (s.x xa) with
        | some p =>
          match (s.ctx p).mbox with
          | some ((xd, b), _, _) =>
            if (s.ctx p).mboxKept.isSome then s
            else if (s.ctx p).away then s.updCtx p fun x => { x with mboxKept := some (s.x xb) }
            else (s.updCtx p fun x => { x with mbox := none }).deliverX p xd b (s.x xb)
          | none => s
        | none => s))

/-! ### The two logs (R61, R191, R192, R340, R341) -/

/-- The quadrants a log instruction reads on a die: selected and enabled. -/
def QSel.quads (sel : QSel) (qm : BitVec 4) : List Nat :=
  match sel with
  | .one q => if qm.getLsbD q.toNat then [q.toNat] else []
  | .all => quadsOf qm

/-- Every earlier bundle of the die has delivered its results, MMULs and weight loads among them (R61). -/
def Die.delivered (y : Die) (bsn : BitVec 48) : Bool :=
  y.flights.all (·.bsn == bsn) && y.mmuls.all (·.bsn == bsn) &&
    y.mq.all fun i => match i with | .load b _ _ _ _ _ _ => b == bsn | .zero _ => true

/-- FELOG (R340): the dies read, and with CLR clear, their logs; the sequencer's two registers wait. Its report covers no access. -/
def execFelog (sel : QSel) (clr : Bool) (xd xe : Reg) (s : State) : Host.Outcome State Fault Refusal :=
  .next (match s.cur.side with
    | .seq =>
      if s.cx.commitWaits then s.stall
      else (((s.gather (.felog xd xe) []).pendX xd).pendX xe).unrepeatable s.cur.ctx
    | .die =>
      if !s.dx.delivered s.pbsn then s.stall
      else
        let qs := QSel.quads sel s.dsrc.qmask
        let s1 := s.report { s.rep true 0 0 (qs.map fun q => s.dx.felogs.getD q {}) with limit := 0 }
        if clr then s1.updDx fun y => { y with felogs := y.felogs.mapIdx fun q l => if qs.contains q then {} else l } else s1)

/-- MSTAT (R341). -/
def execMstat (sel : QSel) (clr : Bool) (xd : Reg) (s : State) : Host.Outcome State Fault Refusal :=
  .next (match s.cur.side with
    | .seq => if s.cx.commitWaits then s.stall else ((s.gather (.mstat xd) []).pendX xd).unrepeatable s.cur.ctx
    | .die =>
      if !s.dx.delivered s.pbsn then s.stall
      else
        let qs := QSel.quads sel s.dsrc.qmask
        let w := qs.foldl (fun (w : W64) q => w ||| (s.dx.arrs.getD q Arr.reset).nanb) 0
        let s1 := s.report { s.rep true w 0 [] with limit := 0 }
        if clr then s1.updDx fun y =>
          { y with arrs := y.arrs.mapIdx fun q r => if qs.contains q then { r with nanb := 0 } else r }
        else s1)

end Sys2Proof.Machine
end

