-- ==== Sys2Proof/Machine/VectorMove.lean ====
section
/-! DEFINITION. The V0 and V1 slots across lanes: shuffles, rotations, broadcasts, reductions, counts, die conditions and views
(R162 to R166, R170 to R173). Nothing crosses a quadrant; source lanes are read raw (R143). -/

namespace Sys2Proof.Machine

/-- The lane of the same quadrant with this index. -/
def quadPos (pos lane : Nat) : Nat := pos / 1024 * 1024 + lane

/-- A move of VA from another lane of the quadrant (R153). -/
def State.moveFrom (s : State) (pg : PIdx) (ty : ETy) (vd : Dst) (va : Opnd) (from' : Nat → Lane → Nat) : State :=
  s.vecOut pg ty vd fun pos l =>
    let p := quadPos pos (from' pos l)
    quiet (s.val ty va p (s.laneAt p))

/-- Lane idx mod 1,024 of the quadrant, idx being VB read as N16 (R164). -/
def execVshuf (a : V2) (s : State) : Host.Outcome State Fault Refusal :=
  .next (s.moveFrom a.pg a.ty a.vd a.va fun pos l => s.val .n16 a.vb pos l % 1024)

/-- The amount of a rotation or broadcast along an axis of n lanes (R162). -/
def State.amount (s : State) (a : Amt) (n : Nat) : Nat :=
  match a with
  | .imm i => i.toNat % n
  | .x r => (s.px r).toNat % n
  | .c i => (s.dx.consts.getD i.toNat 0).toNat % n

def execVrotr (a : VAxA) (s : State) : Host.Outcome State Fault Refusal :=
  .next (s.moveFrom a.pg a.ty a.vd a.va fun pos _ =>
    pos % 1024 / 64 * 64 + (pos % 64 + 64 - s.amount a.amt 64) % 64)
def execVrotc (a : VAxA) (s : State) : Host.Outcome State Fault Refusal :=
  .next (s.moveFrom a.pg a.ty a.vd a.va fun pos _ =>
    (pos % 1024 / 64 + 16 - s.amount a.amt 16) % 16 * 64 + pos % 64)
def execVbcr (a : VAxA) (s : State) : Host.Outcome State Fault Refusal :=
  .next (s.moveFrom a.pg a.ty a.vd a.va fun pos _ => pos % 1024 / 64 * 64 + s.amount a.amt 64)
def execVbcc (a : VAxA) (s : State) : Host.Outcome State Fault Refusal :=
  .next (s.moveFrom a.pg a.ty a.vd a.va fun pos _ => s.amount a.amt 16 * 64 + pos % 64)

/-! ### Reductions (R165) -/

/-- One combination of two terms. -/
def redStep (op : RedOp) (ty : ETy) (m : RM) (x y : Nat) : Nat × Ev :=
  match op with
  | .add => if ty.isF then fAdd (fmtOf ty) m x y else iwrap ty (tval ty x + tval ty y)
  | .min => quiet (if ty.isF then fMin (fmtOf ty) x y else if tval ty x ≤ tval ty y then x else y)
  | .max => quiet (if ty.isF then fMax (fmtOf ty) x y else if tval ty x ≤ tval ty y then y else x)
  | .and => quiet (x &&& y)
  | .or => quiet (x ||| y)
  | .xor => quiet (x ^^^ y)

/-- One level of the fixed pairwise order: v[j] op v[j + d] for j below d (R165). -/
def redLevel (f : Nat → Nat → Nat × Ev) : List Nat → List Nat → List (Nat × Ev)
  | x :: xs, y :: ys => f x y :: redLevel f xs ys
  | _, _ => []

/-- The pairwise reduction of 2^n terms, with the events of every combination (R165). -/
def redTree (f : Nat → Nat → Nat × Ev) : Nat → List Nat → Nat × Ev
  | 0, v => (v.headD 0, {})
  | n + 1, v =>
    let r := redLevel f v (v.drop (2 ^ n))
    let t := redTree f n (r.map (·.1))
    (t.1, (r.foldl (fun (e : Ev) x => e.or x.2) {}).or t.2)

/-- A reduction over the lanes that `line` lists for a position, 2^n of them. -/
def State.reduce (s : State) (a : VRedA) (n : Nat) (line : Nat → List Nat) : State :=
  s.vecOut a.pg a.ty a.vd fun pos _ =>
    redTree (redStep a.op a.ty s.smode) n
      ((line pos).map fun i => s.val a.ty a.va (quadPos pos i) (s.laneAt (quadPos pos i)))

/-- The lanes of a position's row, and of its column (R122). -/
def rowOf (pos : Nat) : List Nat := (upto 64).map fun c => pos % 1024 / 64 * 64 + c
def colOf (pos : Nat) : List Nat := (upto 16).map fun r => r * 64 + pos % 64

def execVredr (a : VRedA) (s : State) : Host.Outcome State Fault Refusal := .next (s.reduce a 6 rowOf)
def execVredc (a : VRedA) (s : State) : Host.Outcome State Fault Refusal := .next (s.reduce a 4 colOf)

/-- The lanes below a position, in its row or in its quadrant, whose predicate pA is true (R166). -/
def State.idxOf (s : State) (quad : Bool) (pa : PIdx) (pos : Nat) : Nat :=
  let lo := if quad then pos / 1024 * 1024 else pos / 64 * 64
  (((s.dsrc.lanes.drop lo).take (pos - lo)).filter fun l => s.dsrc.predAt pa l).length

def execVidx (a : VIdxA) (s : State) : Host.Outcome State Fault Refusal :=
  .next (s.vecOut a.pg a.ty a.vd fun pos _ => quiet (s.idxOf a.quad a.pa pos % 2 ^ a.ty.bits))

/-! ### Die conditions (R170) -/

/-- The values of the contributing lanes: enabled quadrant and PG true. -/
def State.terms (s : State) (pg : PIdx) (ty : ETy) (va : Opnd) : List Nat :=
  let r := s.dsrc
  (r.lanes.mapIdx fun pos l => if r.on pos && r.predAt pg l then [s.val ty va pos l] else []).flatten

/-- A nonzero value; ±0 is zero and NaN is not (R170). -/
def nonzero (ty : ETy) (v : Nat) : Bool := if ty.isF then !(FV.dec (fmtOf ty) v).isZero else v != 0

/-- The dc value of a reduction and the events of its single rounding (R170). -/
def condVal (op : CondOp) (ty : ETy) (m : RM) (t : List Nat) : W64 × Ev :=
  match op with
  | .or => (if t.any (nonzero ty) then 1 else 0, {})
  | .and => (if t.all (nonzero ty) then 1 else 0, {})
  | .isum => (t.foldl (fun a v => a + BitVec.ofInt 64 (tval ty v)) 0, {})
  | .fmax => (w64 (t.foldl (fun a v => fMax .fp32 a (convert ty .fp32 .rne false v).1) 0xFF800000), {})
  | .fmin => (w64 (t.foldl (fun a v => fMin .fp32 a (convert ty .fp32 .rne false v).1) 0x7F800000), {})
  | .fsum =>
    let r := (t.foldl (fun a v => a.addF (FV.dec (fmtOf ty) v)) Lacc.zero).round .fp32 m
    (w64 r.1, r.2)

/-- The lowest-numbered enabled quadrant. -/
def DieRegs.lowQuad (r : DieRegs) : Nat := ((upto 4).find? fun q => r.qmask.getLsbD q).getD 0

def execVcond (a : VCondA) (s : State) : Host.Outcome State Fault Refusal :=
  .next (if s.dsrc.qmask = 0 then s
    else
      let v := condVal a.op a.ty s.smode (s.terms a.pg a.ty a.va)
      s.fly 0 0 [(a.dc.toNat, v.1)] [(s.dsrc.lowQuad, v.2)] [])

/-! ### Views (R171 to R173) -/

/-- At the sequencer the value is checked; a die writes its view. -/
def execVview (vw : BitVec 3) (xa : Reg) (s : State) : Host.Outcome State Fault Refusal :=
  .next (match s.cur.side with
    | .seq => if vwOk (s.x xa) then s else s.takeTrap { cause := 0x000B }
    | .die => s.updDx fun y =>
        { y with regs := { y.regs with views := y.regs.views.set vw.toNat (s.px xa) }, bad := y.bad.filter (· != .view vw.toNat) })

end Sys2Proof.Machine
end

