-- ==== Sys2Proof/Machine/Gang.lean ====
section
/-! DEFINITION. Gangs (R398 to R413): RDV, RED, MASK and PERM, gang operations of multi-stream gangs, the combined reports of the
response tree (R397), and the data that a PERM moves. -/

namespace Sys2Proof.Machine

/-! ### Gang operations (R399) -/

/-- The other contexts of a multi-stream gang. -/
def State.partners (s : State) (c : Nat) : List Nat :=
  if lGMode (s.ctx c).lrec == 2 then (s.gangDies c).filter (· != c) else []

/-- An operation adds 1 to GOC; in a multi-stream gang it is a gang operation (R399). -/
def State.gangOp (s : State) (i : Instr) : State :=
  s.updCx fun x =>
    { x with
      gops := if lGMode x.lrec == 2 then x.gops ++ [{ goc := x.goc, bsn := x.bsn, addr := x.pc, ins := i }] else x.gops
      goc := x.goc + 1 }

/-- How a stream's operation stands with the streams of its gang. -/
inductive GangSt where
  /-- the operation is the context's own: a single stream, or one the gang has completed before a rewind (R402) -/
  | alone
  | waits
  | ready
  /-- GANG_MISMATCH -/
  | differs
  /-- GANG_BROKEN -/
  | broken
  deriving DecidableEq, Repr

/-- A partner's operation of a GOC. -/
def State.gopOf (s : State) (p : Nat) (goc : BitVec 32) : Option GOp := (s.ctx p).gops.find? (·.goc == goc)

/-- A GOC comes before another; the count is 32 bits wide and wraps (R399). -/
def gocBefore (a b : BitVec 32) : Bool := (b - a - 1).toNat < 2 ^ 31

/-- An RDV that the gang has completed, issued again after a rewind (R402): its GOC lies before that of the last operation of any kind that
the gang has completed, so the count may wrap. -/
def Ctx.rdvAgain (x : Ctx) (o : GOp) : Bool :=
  match o.ins with
  | .rdv _ => gocBefore o.goc x.gdone
  | _ => false

/-- The standing of an operation (R399 to R402). Once every partner's GOC has passed an operation and none still has it, because its
handler skipped it with ERET.skip, the stream completes it by itself: DESIGN CHOICE (log 22), the spec does not say. -/
def State.gangSt (s : State) (c : Nat) (o : GOp) : GangSt :=
  let ps := s.partners c
  if (s.ctx c).rdvAgain o then .alone
  else if ps.any fun p => (s.ctx p).killed then .broken
  else if o.differs then .differs
  else if ps.any fun p => (s.gopOf p o.goc).isNone && !gocBefore o.goc (s.ctx p).goc then .waits
  else if ps.any fun p => (s.gopOf p o.goc).any fun q => q.ins != o.ins then .differs
  else if ps.all fun p => (s.gopOf p o.goc).isNone then .alone
  else .ready

/-- The operations of a GOC differ: every stream will raise GANG_MISMATCH at its own bundle, whatever the others' handlers do meanwhile
(R399). -/
def State.markDiffers (s : State) (c : Nat) (goc : BitVec 32) : State :=
  (c :: s.partners c).foldl (fun t p => t.updCtx p fun x =>
    { x with gops := x.gops.map fun q => if q.goc == goc then { q with differs := true } else q }) s

/-- A stream raises a gang cause at the bundle of its operation, on its own die (R400). A replay finds the operation still there. -/
def State.gangFault (s : State) (c : Nat) (o : GOp) (cause : BitVec 16) : State :=
  let d := lPart (s.ctx c).lrec
  if (s.die d).fault.isSome || (s.ctx c).frozen then s
  else
    let p := (s.ctx c).resend.find? (·.bsn == o.bsn)
    let done := (s.die d).frontier.any fun f => o.bsn ≤ f
    s.raiseDie d
      { bsn := o.bsn, addr := o.addr, slot := 7, cause := cause, data := 0, lanes := [], walk := 0, field := encode o.ins,
        scw := (p.map (·.words)).getD [], cmask := if done then dropSlot ((p.map Packet.present).getD 0) 7 else 0,
        redo := .remote [] }

/-! ### RDV, RED, MASK (R403 to R406) -/

/-- RDV: a FENCE of gang scope, and in a multi-stream gang a rendezvous (R403). -/
def execRdv (tag : BitVec 16) (s : State) : Host.Outcome State Fault Refusal :=
  .next (match s.cur.side with
    | .seq =>
      if s.portBusy then s.stall
      else ((s.gather (.rdv tag) []).gangOp (.rdv tag)).waitFor (.gather s.cx.bsn)
    | .die => s.report (s.rep true 0 0 []))

/-- RED: each die sends its dc term; XD waits for the combination (R404). -/
def execRed (op : YRed) (xd : Reg) (dc : BitVec 2) (s : State) : Host.Outcome State Fault Refusal :=
  .next (match s.cur.side with
    | .seq =>
      if s.cx.commitWaits then s.stall
      else (((s.gather (.red op xd) []).gangOp (.red op xd dc)).pendX xd).unrepeatable s.cur.ctx
    | .die => s.report { s.rep true (s.dsrc.dcs.getD dc.toNat 0) 0 [] with limit := 0 })

/-- A half-die partition cannot enable quadrants 2 and 3, and no DMASK bit lies outside the issue set (R406). -/
def State.maskOk (s : State) (c : Nat) (a : MaskA) (x : W64) : Bool :=
  let set := s.issueSet c
  (a.kd || (upto 64).all fun n => !x.getLsbD n || set.any fun d => s.cdn d == n) &&
    (a.kq || !lHalf (s.ctx c).lrec || (!a.qm.getLsbD 2 && !a.qm.getLsbD 3))

/-- MASK: DMASKS at step 5, each die's masks at its issue; MASK_RANGE on every die and no effect when a check fails (R406). -/
def execMask (a : MaskA) (s : State) : Host.Outcome State Fault Refusal :=
  .next (match s.cur.side with
    | .seq =>
      if !a.kd && s.maskOk s.cur.ctx a (s.x a.xa) then s.updCx fun x => { x with dmasks := s.x a.xa } else s
    | .die =>
      let ok := match s.driver s.cur.die with
        | some c => s.maskOk c a (s.px a.xa)
        | none => true
      if !ok then s.dieFault 0x0301 0 []
      else s.updDx fun y =>
        { y with regs := { y.regs with dmask := if a.kd then y.regs.dmask else s.px a.xa,
                                       qmask := if a.kq then y.regs.qmask else a.qm } })

/-! ### The response tree (R397, R404) -/

/-- The combination of RED terms (R404). -/
def redValue (op : YRed) (rm : BitVec 2) (t : List W64) : W64 :=
  match op with
  | .or => t.foldl (· ||| ·) 0
  | .and => t.foldl (· &&& ·) (BitVec.allOnes 64)
  | .isum => t.foldl (· + ·) 0
  | .fmax => w64 (t.foldl (fun a v => fMax .fp32 a (v.toNat % 2 ^ 32)) 0xFF800000)
  | .fsum =>
    w64 (((t.foldl (fun a v => a.addF (FV.dec .fp32 (v.toNat % 2 ^ 32))) Lacc.zero).round .fp32 (RM.ofBits rm)).1)

/-- What a wait for a bundle's gather becomes when it completes. -/
def Ctx.gathered (x : Ctx) (bsn : BitVec 48) : Ctx := if x.wait == .gather bsn then { x with wait := .none } else x

/-- The gang has completed the operation of a GOC (R402). -/
def Ctx.gocDone (x : Ctx) (goc : BitVec 32) : Ctx := if gocBefore goc x.gdone then x else { x with gdone := goc + 1 }

/-- Ends a gang operation of a context. -/
def State.endGop (s : State) (c : Nat) (goc : BitVec 32) : State :=
  s.updCtx c fun x => { x.gocDone goc with gops := x.gops.filter (·.goc != goc) }

/-- The gather of a context's gang operation. -/
def State.gatherOf (s : State) (c : Nat) (o : GOp) : Option Gather := (s.ctx c).gathers.find? (·.bsn == o.bsn)

/-- The streams whose operation of a GOC is in progress: the context and its partners, with their gathers. -/
def State.streams (s : State) (c : Nat) (g : Gather) : List (Nat × Gather) :=
  (c, g) :: (s.partners c).filterMap fun p =>
    match s.gopOf p g.goc with
    | some o => (s.gatherOf p o).map fun h => (p, h)
    | none => none

/-- The terms of the enabled dies of some streams. -/
def State.redTerms (s : State) (l : List (Nat × Gather)) : List W64 :=
  l.flatMap fun e => ((s.repsOf e.2).filter (·.enabled)).map (·.term)

/-- The rounding mode at the root: that of the lowest stream (R404; log 21). -/
def rootMode (l : List (Nat × Gather)) : BitVec 2 :=
  ((l.foldl (fun (a : Option (Nat × Gather)) e =>
    match a with
    | some b => if e.1 < b.1 then some e else a
    | none => some e) none).map (·.2.rm)).getD 0

/-- Completes a RDV or a RED of the listed streams together: every stream takes the same value (R403, R404). -/
def State.gangDone (s : State) (l : List (Nat × Gather)) (goc : BitVec 32) : State :=
  let t := s.redTerms l
  l.foldl (fun u e =>
    let u1 := ((u.endGather e.1 e.2).endGop e.1 goc).updCtx e.1 fun x => x.gathered e.2.bsn
    match e.2.kind with
    | .red op xd => u1.deliverX e.1 xd e.2.bsn (redValue op (rootMode l) t)
    | _ => u1) s

/-- A RDV or RED whose own reports are in: it completes with its gang, waits, or raises a gang cause. -/
def State.gangReport (s : State) (c : Nat) (g : Gather) : State :=
  match s.gopOf c g.goc with
  | none => s.gangDone [(c, g)] g.goc
  | some o =>
    match s.gangSt c o with
    | .alone => s.gangDone [(c, g)] g.goc
    | .waits => s
    | .broken => s.gangFault c o 0x0305
    | .differs => (s.markDiffers c g.goc).gangFault c o 0x0304
    | .ready => if (s.streams c g).all fun e => s.reported e.2 then s.gangDone (s.streams c g) g.goc else s

/-- The first-event logs of all reports (R340). -/
def mergeLogs (r : List Rep) : FeLog := (r.flatMap (·.log)).foldl FeLog.merge {}

/-- Whether an operation's combined report can be taken now. -/
def State.reportDue (s : State) (c : Nat) (g : Gather) : Bool :=
  s.reported g &&
    (match g.kind with
     | .brel _ | .coll => false
     | .sigadd _ _ _ _ _ | .sigst _ _ _ _ => (s.ctx c).portDone g.bsn
     | .rdv _ | .red _ _ =>
       (match s.gopOf c g.goc with
        | some o => s.gangSt c o != .waits
        | none => true)
     | _ => true)

/-- Takes the combined report of an operation. -/
def State.takeReport (s : State) (c : Nat) (g : Gather) : State :=
  match g.kind with
  | .brel _ | .coll => s
  | .fence _ => (s.endGather c g).updCtx c fun x => x.gathered g.bsn
  | .rdv _ => s.gangReport c g
  | .red _ _ => s.gangReport c g
  | .sigadd _ _ _ _ _ => s.sigDone c g
  | .sigst _ _ _ _ => s.sigDone c g
  | .felog xd xe =>
    let l := mergeLogs (s.repsOf g)
    ((s.endGather c g).deliverX c xd g.bsn l.word0).deliverX c xe g.bsn (if l.valid then l.word1 else 0)
  | .mstat xd => (s.endGather c g).deliverX c xd g.bsn ((s.repsOf g).foldl (fun (w : W64) r => w ||| r.term) 0)

/-- A combined report of a context's dies arrives: the oldest operation whose reports are in (R397). -/
def execResponseReport (ctx : Nat) (s : State) : Host.Outcome State Fault Refusal :=
  .next (if (s.ctx ctx).swapped then s
    else match (s.ctx ctx).gathers.find? (s.reportDue ctx) with
      | some g => s.takeReport ctx g
      | none => s)

/-! ### PERM (R408 to R412) -/

/-- GW and GH of a grid (R408). -/
def gridW (gw : BitVec 3) : Nat := 2 ^ gw.toNat

/-- PERM_SHAPE (R400). -/
def permShapeBad (pat : PermPat) (gw : BitVec 3) (amt : BitVec 7) (n : Nat) : Bool :=
  n % gridW gw != 0 ||
    (match pat with
     | .trans => n / gridW gw != gridW gw
     | .bcast => n ≤ amt.toNat
     | _ => false)

/-- A coordinate moved against the amount: within the axis, or around it. -/
def permMove (rot : Bool) (v : Nat) (a : Int) (n : Nat) : Option Nat :=
  let t := (v : Int) - a
  if rot then some (t % n).toNat else if 0 ≤ t && t < n then some t.toNat else none

/-- The source index s(d) (R408). -/
def permSrc (pat : PermPat) (gw : BitVec 3) (amt : BitVec 7) (n d : Nat) : Option Nat :=
  let w := gridW gw
  let a := sx 7 amt.toNat
  let mv (rot : Bool) (ax : Axis) : Option Nat :=
    match ax with
    | .row => (permMove rot (d % w) a w).map fun j => d / w * w + j
    | .col => (permMove rot (d / w) a (n / w)).map fun i => i * w + d % w
    | .all => permMove rot d a n
  match pat with
  | .shift ax => mv false ax
  | .rot ax => mv true ax
  | .xor => if (d ^^^ amt.toNat) < n then some (d ^^^ amt.toNat) else none
  | .bcast => some amt.toNat
  | .trans => some (d % w * w + d / w)

/-- A die executes bundles: its DMASK bit and a quadrant are set (R145, R146). -/
def State.enabled (s : State) (d : Nat) : Bool := s.maskBit (s.die d).regs.dmask d && (s.die d).regs.qmask != 0

/-- The die that a PERM takes data from for a die: named by the pattern, and one of those that issue it, which are enabled. -/
def State.permFrom (s : State) (ds : List Nat) (pat : PermPat) (gw : BitVec 3) (amt : BitVec 7) (d : Nat) : Option Nat :=
  match permSrc pat gw amt (s.dieGang d).length (s.dieIdx d) with
  | some i =>
    match (s.dieGang d)[i]? with
    | some e => if ds.contains e then some e else none
    | none => none
  | none => none

/-- The lanes that a slice PERM writes on a die: those of quadrants enabled on both dies, with the slices they receive. Source and
destination ranges are renamed by their own views (R410). -/
def permLanes (src dst : DieRegs) (a : PermA) : List LaneW :=
  let n := a.nsm1.toNat + 1
  let ps := src.phys a.ss.toNat n
  let pd := dst.phys a.ss.toNat n
  src.lanes.mapIdx fun pos l => if src.on pos && dst.on pos then putSlices pd (l.rd ps) else {}

/-- PERM_RANGE (R411). -/
def State.permRangeBad (s : State) (xs xt xn : W64) : Bool :=
  let n := s.padSize s.cur.die
  xs.toNat % 64 != 0 || xt.toNat % 64 != 0 || xn.toNat % 64 != 0 || xn.toNat < 64 || 2 ^ 24 < xn.toNat ||
    n < xs.toNat + xn.toNat || n < xt.toNat + xn.toNat

/-- PERM in slice mode (R409, R410): at the sequencer it counts as a gang operation; a die checks its shape and holds it until the
lockstep cc, in which it claims the slices that the data will be written to. -/
def execPerm (a : PermA) (s : State) : Host.Outcome State Fault Refusal :=
  .next (match s.cur.side with
    | .seq => if s.cx.commitWaits then s.stall else (s.gangOp (.perm a)).unrepeatable s.cur.ctx
    | .die =>
      if permShapeBad a.pat a.gw a.amt (s.dieGang s.cur.die).length then s.dieFault 0x0302 0 []
      else if s.cur.perm.isNone then s.stall
      else
        let l := match s.permFrom (s.cur.perm.getD []) a.pat a.gw a.amt s.cur.die with
          | some e => permLanes (s.die e).regs s.dsrc a
          | none => []
        { s with cur := { s.cur with claimed := (7, l) :: s.cur.claimed } })

/-- PERM in vault mode (R409, R411): an engine instruction with a token. -/
def execPermVault (a : PermVA) (s : State) : Host.Outcome State Fault Refusal :=
  .next (match s.cur.side with
    | .seq => if s.cx.commitWaits then s.stall else (s.gangOp (.permVault a)).unrepeatable s.cur.ctx
    | .die =>
      if s.y0.pend a.tout then s.stall
      else if permShapeBad a.pat a.gw a.amt (s.dieGang s.cur.die).length then s.dieFault 0x0302 0 []
      else if s.permRangeBad (s.px a.xs) (s.px a.xt) (s.px a.xn) then s.dieFault 0x0303 0 []
      else if s.cur.perm.isNone then s.stall
      else s.updDx fun y => y.setTok a.tout true)

/-- The flight of a slice PERM's data towards a die, read in the lockstep cc (R410). -/
def permFlight (p : Packet) (src : Option DieRegs) (dst : DieRegs) (a : PermA) : Flight :=
  let pd := dst.phys a.ss.toNat (a.nsm1.toNat + 1)
  { bsn := p.bsn, addr := p.addr, slot := 7, load := false, qm := dst.qmask, ws := if src.isSome then sliceSet pd else 0, pw := 0,
    lanes := (src.map fun r => permLanes r dst a).getD [], dcs := [], evs := [] }

/-- n bytes of the scratchpad as a list. -/
def Die.padList (y : Die) (o n : Nat) : List Byte := (upto n).map fun i => y.padByte (o + i)

/-- The command of a vault PERM on a die: the bytes it receives, if any, which its source die read at the words of its own packet; those
that would lie past the `n` bytes of its scratchpad are dropped (R411; log 21). -/
def permCmd (p : Packet) (src : Option (Die × Packet)) (n : Nat) (a : PermVA) : Cmd :=
  { bsn := p.bsn, addr := p.addr,
    kind := .perm (src.map fun e => (e.1.padList (e.2.getX a.xs).toNat (e.2.getX a.xn).toNat).take (n - (p.getX a.xt).toNat))
      (p.getX a.xt).toNat,
    tout := a.tout, tile := 0, desc := 0, xo := 0, xb := 0, dieIdx := 0, dsel := .none, started := true, limit := 0,
    buf := none, slot := 7, field := 0, scw := p.words, present := p.present, detached := false }

/-- A PERM is in flight on a die. -/
def Cmd.isPerm (c : Cmd) : Bool := match c.kind with | .perm _ _ => true | _ => false
def Die.permBusy (y : Die) : Bool := y.permW.isSome || y.cmds.any Cmd.isPerm

/-- A vault PERM's block is written and its token completes (R411). -/
def State.finishPerm (s : State) (d idx : Nat) (c : Cmd) : State :=
  match c.kind with
  | .perm data off =>
    s.updDie d fun y =>
      let y1 := { y with cmds := y.cmds.eraseIdx idx }
      let y2 := match data with
        | some l => l.zipIdx.foldl (fun (y : Die) (e : Byte × Nat) => y.setPad (off + e.2) e.1) y1
        | none => y1
      y2.setTok c.tout false
  | _ => s

/-- The data of a PERM are written on a die: slices, or scratchpad blocks (R410, R411). -/
def State.permWrite (s : State) (d : Nat) : State :=
  let s1 := match (s.die d).permW with
    | some f => s.updDie d fun y => { y.land f with permW := none }
    | none => s
  match (s1.die d).cmds.findIdx? (fun c => c.isPerm && !c.detached) with
  | some i =>
    match (s1.die d).cmds[i]? with
    | some c => s1.finishPerm d i c
    | none => s1
  | none => s1

/-- The data of a PERM wait while a matrix multiply of its bundle has still to read the slices on a die (R70). -/
def Die.permLands (y : Die) : Bool := y.permW.all fun f => y.mayLand f.bsn f.ws

/-- At c + T the data of a gang's PERM are written on every die (R412). -/
def execPermDataWrite (ctx : Nat) (s : State) : Host.Outcome State Fault Refusal :=
  .next (if (s.gangDies ctx).all fun d => (s.die d).permLands then (s.gangDies ctx).foldl (fun t d => t.permWrite d) s else s)

end Sys2Proof.Machine
end

