-- ==== Sys2Proof/Machine/LandOps.lean ====
section
/-! DEFINITION. The Landing's shared operations: its reads and stores at home, queue descriptors (R272), kernel headers (R89 to R91,
R287), region versions (R310 to R314), completion signals (R283, R285), and completion records and event rings (R296, R297). -/

namespace Sys2Proof.Machine

/-! ### Reads and stores of the Landing (R285, R287 to R289, R388) -/

/-- Why a read or store of the Landing fails: its translation, or poison at a physical address. -/
inductive LandErr where
  | xlat
  | poison (pa : Nat)
  deriving DecidableEq, Repr

/-- GLOBAL_FAULT or ENTRY_POISON (R287, R388). -/
def LandErr.code : LandErr → Nat
  | .xlat => 0x000A
  | .poison _ => 0x0208

/-- Poison that the Landing reads goes to error bank 66 (R388). -/
def State.landErr (s : State) (e : LandErr) : State :=
  match e with
  | .xlat => s
  | .poison pa => s.logErr 66 { uc := true, kind := 5, w1 := w64 pa, w2 := Config.syndrome s.stepNo }

/-- Reads n bytes of one line at a virtual address of a job. -/
def State.landRd (s : State) (job : BitVec 16) (va n : Nat) : Except LandErr Nat :=
  match s.translateCold (s.jobXlat job) .load va with
  | .error _ => .error .xlat
  | .ok pa => if s.poisonIn pa n then .error (.poison pa) else .ok (s.homeRd pa n)

/-- Reads k items of n bytes each, one after the other. -/
def State.landRds (s : State) (job : BitVec 16) (n : Nat) : Nat → Nat → Except LandErr (List Nat)
  | 0, _ => .ok []
  | k + 1, va =>
    match s.landRd job va n with
    | .error e => .error e
    | .ok v =>
      match s.landRds job n k (va + n) with
      | .error e => .error e
      | .ok l => .ok (v :: l)

/-- Stores n bytes at a virtual address of a job. -/
def State.landWr (s : State) (job : BitVec 16) (va n v : Nat) : Except LandErr State :=
  match s.translateCold (s.jobXlat job) .store va with
  | .error _ => .error .xlat
  | .ok pa => .ok (s.memWr pa n v)

/-- A line's poison goes with a store of the whole line, or of −1 to a poisoned signal (R285). -/
def State.clearPoison (s : State) (a : Nat) : State := { s with poison := s.poison.filter (· != a / 64) }

/-- A store of a whole 64-byte line, which replaces what the line held, its poison too. -/
def State.memLine (s : State) (a v : Nat) : State := (s.memWr a 64 v).clearPoison a

/-! ### Queue descriptors (R272) -/

def State.qdescAt (s : State) (q : Nat) : Nat := s.qtbase.toNat + 64 * q

/-- The descriptor of a queue as the Landing reads it, and the poison it met; one that holds poison cannot be mapped (R272, R388). -/
def State.qdesc (s : State) (q : Nat) : BitVec 512 × Option LandErr :=
  if s.poisonIn (s.qdescAt q) 64 then (BitVec.allOnes 512, some (.poison (s.qdescAt q)))
  else (BitVec.ofNat 512 (s.homeRd (s.qdescAt q) 64), none)

/-- The errors of some reads are recorded (R388). -/
def State.landErr? (s : State) (e : Option LandErr) : State := e.elim s s.landErr

def qRing (r : BitVec 512) : Nat := bf r 399 344
def qRdptr (r : BitVec 512) : Nat := bf r 343 288
def qJob (r : BitVec 512) : BitVec 16 := BitVec.ofNat 16 (bf r 287 272)
def qHome (r : BitVec 512) : Nat := bf r 271 265
def qLog2n (r : BitVec 512) : Nat := bf r 264 260
def qClass (r : BitVec 512) : Nat := bf r 259 258
def qState (r : BitVec 512) : Nat := bf r 257 256

/-- A descriptor that can be mapped (R272). -/
def qOk (r : BitVec 512) : Bool :=
  bf r 511 400 == 0 && bf r 255 0 == 0 && 6 ≤ qLog2n r && qLog2n r ≤ 16 && qState r < 2 && qRing r % 4096 == 0 &&
    qRdptr r % 8 == 0

/-- Queues of the module. -/
def queueCount : Nat := 262144

/-- The berth a queue is mapped on. -/
def State.berthOf (s : State) (q : Nat) : Option Nat := (s.berths.find? fun e => e.2.queue == q).map (·.1)
def State.berth? (s : State) (b : Nat) : Option Berth := Tbl.get? s.berths b
def State.updBerth (s : State) (b : Nat) (f : Berth → Berth) : State :=
  match s.berth? b with
  | some x => { s with berths := s.berths.put b (f x) }
  | none => s

/-! ### Partitions -/

/-- A partition exists and belongs to a job. -/
def State.partOf (s : State) (p : Nat) (job : BitVec 16) : Bool := p < s.nparts && (s.part p).pjob == some job

/-- A partition that can start a launch: its context is IDLE, no speculative run is on it, and no gang but `g` holds it (R277,
R293). -/
def State.partFree (s : State) (p : Nat) (g : Option Nat) : Bool :=
  let x := s.ctx p
  x.lst == .idle && x.spec.isNone && ((s.part p).gang.isNone || (s.part p).gang == g) && !s.phalt

/-! ### Kernel headers (R89, R91, R287) -/

/-- A region-list entry that R287 refuses. -/
def regionBad (e : W64) : Bool :=
  bf e 63 62 == 0 || bf e 42 0 != 0 || bf e 61 56 % 2 == 1 || bf e 55 50 % 2 == 1 || bf e 48 43 % 2 == 1 || 62 < bf e 61 56 ||
    62 < bf e 55 50 || 62 < bf e 48 43 || (!e.getLsbD 49 && bf e 48 43 != 0)

/-- A header that R287 refuses. -/
def headerBad (h : BitVec 1024) : Bool :=
  let nc := bf h 15 9
  let nr := bf h 22 16
  let ct := bf h 511 456
  let rt := bf h 455 400
  bf h 63 48 != 0x4B48 || bf h 47 40 != 1 || bf h 399 384 != 0 || bf h 263 64 != 0 || bf h 39 33 != 0 || bf h 8 8 != 0 ||
    bf h 319 264 % 64 != 0 || 256 < bf h 31 23 || 64 < nc || 127 < nr || (ct == 0) != (nc == 0) || (rt == 0) != (nr == 0) ||
    ct % 8 != 0 || rt % 8 != 0 ||
    (upto 8).any fun i => h.getLsbD i && !vwOk (w64 (bf h (64 * i + 575) (64 * i + 512)))

/-- n bytes of a number as a list. -/
def bytesOf (v : Nat) : Nat → List Byte
  | 0 => []
  | n + 1 => BitVec.ofNat 8 v :: bytesOf (v / 256) n

/-- The reads and checks of R287 up to step 1, in its order: what the launch needs, or the status and the failed read. -/
def State.readKernel (s : State) (job : BitVec 16) (khdr args : BitVec 56) (iinv : Bool) : Except (Nat × Option LandErr) Prep :=
  match s.landRds job 64 2 khdr.toNat with
  | .error e => .error (3, some e)
  | .ok hw =>
    let h : BitVec 1024 := BitVec.ofNat 1024 (hw.getD 0 0 + 2 ^ 512 * hw.getD 1 0)
    if headerBad h then .error (6, none)
    else
      match s.landRds job 8 (bf h 15 9) (bf h 511 456), s.landRds job 8 (bf h 22 16) (bf h 455 400) with
      | .error e, _ => .error (3, some e)
      | _, .error e => .error (3, some e)
      | .ok cs, .ok rs =>
        let rs := rs.map w64
        if rs.any regionBad then .error (6, none)
        else
          match s.landRds job 64 ((bf h 31 23 + 63) / 64) args.toNat with
          | .error e => .error (3, some e)
          | .ok as =>
            let bs := as.flatMap fun v => bytesOf v 64
            .ok { khdr := khdr, entry := BitVec.ofNat 56 (bf h 319 264), vdmask := BitVec.ofNat 8 (bf h 7 0),
                  vdef := (upto 8).map fun i => w64 (bf h (64 * i + 575) (64 * i + 512)), consts := cs.map w64, regs := rs,
                  args := bs ++ List.replicate (256 - bs.length) 0, nospec := h.getLsbD 32,
                  dontcare := w64 (bf h 383 320), iinv := iinv }

/-- 8 bytes of an argument copy from 4-byte word w on. -/
def argWord (args : List Byte) (w : Nat) : Nat := leNat ((args.drop (4 * w)).take 8)

/-- A declared region resolved against an argument copy: DIR, base, size (R91, R215). -/
def resolve (args : List Byte) (e : W64) : Nat × Nat × Nat :=
  (bf e 63 62, argWord args (bf e 61 56) % 2 ^ 56, argWord args (bf e 55 50) % 2 ^ 56)

/-- The regions of a launch. -/
def Prep.regions (p : Prep) : List (Nat × Nat × Nat) := p.regs.map (resolve p.args)

/-- The ranges that a launch writes (R312). -/
def Prep.writes (p : Prep) : List (Nat × Nat) := (p.regions.filter fun r => 2 ≤ r.1).map (·.2)

/-! ### Job-wide entries and versions (R310 to R314) -/

/-- Two ranges of bytes share one. -/
def rangesMeet (a b : Nat × Nat) : Bool := a.2 != 0 && b.2 != 0 && a.1 < b.1 + b.2 && b.1 < a.1 + a.2

/-- The job-wide entries of a partition (R215). -/
def Part.wide (t : Part) : Tbl (BitVec 256) := t.regions.filter fun e => 128 ≤ e.1 && rgValid e.2

/-- The partitions of a job. -/
def State.jobParts (s : State) (job : BitVec 16) : List Nat := (s.parts.filter fun e => e.2.pjob == some job).map (·.1)

/-- The job-wide entries of a job, which are the same in each of its partitions (R312). -/
def State.jobWide (s : State) (job : BitVec 16) : Tbl (BitVec 256) :=
  match (s.jobParts job).head? with
  | some p => (s.part p).wide
  | none => []

/-- The entry's range. -/
def rgRange (e : BitVec 256) : Nat × Nat := (rgBase e, rgSize e)

/-- A job-wide entry is open: a writer of its job that has been dispatched and has not completed overlaps it (R312). -/
def State.isOpen (s : State) (job : BitVec 16) (e : BitVec 256) : Bool :=
  (s.tasks.any fun t => t.2.job == job && t.2.writes.any fun w => rangesMeet w (rgRange e)) ||
    s.ctxs.any fun c => lJob c.2.lrec == job && c.2.colls.any fun r =>
      rangesMeet r.dst (rgRange e) && (match r.st with | .done _ => false | _ => true)

/-- Runs of a job whose read set one of the entries covers are discarded (R314). -/
def State.hitVersions (s : State) (job : BitVec 16) (es : List Nat) : State :=
  let cs := (s.ctxs.filter fun c =>
    match c.2.spec with
    | some r => lJob c.2.lrec == job && r.versions.any fun v => es.contains v.1
    | none => false).map (·.1)
  cs.foldl (fun t c => t.discard c 60) s

/-- The numbers of the job-wide entries that some ranges touch. -/
def State.touched (s : State) (job : BitVec 16) (ranges : List (Nat × Nat)) : List Nat :=
  ((s.jobWide job).filter fun e => ranges.any fun w => rangesMeet w (rgRange e.2)).map (·.1)

/-- The entries that a writer opens: the runs that read them are discarded (R312, R314). -/
def State.openRanges (s : State) (job : BitVec 16) (ranges : List (Nat × Nat)) : State :=
  s.hitVersions job (s.touched job ranges)

/-- VERSION + 1 modulo 2^32. -/
def rgBump (e : BitVec 256) : BitVec 256 := (e &&& ~~~(0xFFFFFFFF : BitVec 256)) ||| (rgVersion e + 1).setWidth 256

/-- Adds 1 to the VERSION of some job-wide entries in every partition of a job (R312, R313). -/
def State.bumpVersions (s : State) (job : BitVec 16) (es : List Nat) : State :=
  let s1 := (s.jobParts job).foldl (fun t p =>
    t.updPart p fun x => { x with regions := x.regions.map fun e => if es.contains e.1 then (e.1, rgBump e.2) else e }) s
  s1.hitVersions job es

/-! ### Completion signals (R283, R285) -/

/-- An atomic operation on a signal word of a job: add, or store. A store replaces a poisoned word. -/
def State.sigOp (s : State) (job : BitVec 16) (va : Nat) (store : Bool) (v : W64) : Except LandErr State :=
  match s.translateCold (s.jobXlat job) (if store then .store else .atomic) va with
  | .error _ => .error .xlat
  | .ok pa =>
    if store then .ok (((s.memWr pa 8 v.toNat).clearPoison pa).notifySig pa)
    else if s.poisonIn pa 8 then .error (.poison pa)
    else .ok ((s.memWr pa 8 (w64 (s.homeRd pa 8) + v).toNat).notifySig pa)

/-- What an untranslatable or poisoned CSIG makes of a status (R285). -/
def State.csigErr (s : State) (job : BitVec 16) (csig : BitVec 56) (status : Nat) : Option LandErr :=
  if csig == 0 then none
  else match s.translateCold (s.jobXlat job) (if status == 0 then .atomic else .store) csig.toNat with
    | .error _ => some .xlat
    | .ok pa => if status == 0 && s.poisonIn pa 8 then some (.poison pa) else none

/-- A completed task acts on its CSIG: −1 added for OK, −1 stored otherwise (R285). -/
def State.csig (s : State) (job : BitVec 16) (csig : BitVec 56) (status : Nat) : State :=
  if csig == 0 then s
  else match s.sigOp job csig.toNat (status != 0) (BitVec.allOnes 64) with
    | .ok t => t
    | .error _ => s

/-- The stores that a release of a task counts at its issue, where its scope reaches other modules (R270). -/
def State.portsFor (s : State) (sc : PScope) : List (Nat × Nat × Nat) :=
  match sc with
  | .pod | .sys => s.unacked
  | _ => []

/-- Every counted store has been acknowledged (R270). -/
def acked (l : List (Nat × Nat × Nat)) : Bool := l.all (·.2.2 == 0)

/-- The release that a task has counted stores for can be performed (R268, R270). -/
def Task.clear (t : Task) : Bool := t.ports.all acked

/-! ### The groups of collectives (R418, R426) -/

def State.group? (s : State) (job : BitVec 16) (gid : Nat) : Option Group :=
  s.groups.find? fun g => g.job == job.toNat && g.gid == gid

/-- Every member lies on this module (R418). -/
def State.localGroup (s : State) (g : Group) : Bool := g.members.all (·.1 == s.mid.toNat)

/-- The group of a key is module-local. -/
def State.keyLocal (s : State) (job gid : Nat) : Bool :=
  match s.group? (BitVec.ofNat 16 job) gid with
  | some g => s.localGroup g
  | none => true

/-- This module's Registrar instance serves a key: its own groups, and as the primary every pod-wide one (R418). -/
def State.servesKey (s : State) (job gid : Nat) : Bool := s.keyLocal job gid || (s.regr.primary && !s.collstop)

/-- A request to cancel a key goes to its Registrar; the decision of one on another module comes as a message (R426). -/
def State.askCancel (s : State) (job gid seq : Nat) : State :=
  if s.servesKey job gid then s.post (.cancelDecision ⟨job, gid, seq⟩ none s.regr.epoch) else s

/-! ### Completion records (R296, R297) -/

/-- The content of a completion record. -/
structure RecIn where
  level : Nat
  id : W64 := 0
  tag : BitVec 32 := 0
  fault : BitVec 32 := 0
  ucode : BitVec 16 := 0
  status : Nat
  part : Nat
  berth : Nat
  deriving DecidableEq, Repr

/-- The record without its pass bit, at the reference count of completion (R296). -/
def State.recWord (s : State) (r : RecIn) : BitVec 256 :=
  BitVec.ofNat 256 ((Config.timeAt s.stepNo).toNat * 2 ^ 192 + r.id.toNat * 2 ^ 128 + r.tag.toNat * 2 ^ 96 + r.fault.toNat * 2 ^ 64
    + r.ucode.toNat * 2 ^ 48 + at' 40 8 r.status + at' 36 4 r.level + at' 29 7 r.part + at' 16 12 r.berth)

/-- The ring of a partition cannot be reached: the record is dropped, and bank 66 records it with the partition (R297). -/
def State.ringErr (s : State) (p : Nat) (e : LandErr) : State :=
  let w : Nat := match e with
    | .xlat => 0
    | .poison pa => pa
  s.logErr 66 { uc := true, kind := (match e with | .xlat => 0 | .poison _ => 5), part := some p, w1 := w64 w,
                w2 := Config.syndrome s.stepNo }

/-- The ring block of a partition: its job and its 32 bytes (R296). -/
def State.ringBlock (s : State) (p : Nat) : Except LandErr (BitVec 16 × Nat) :=
  match (s.part p).pjob with
  | none => .error .xlat
  | some j =>
    match s.landRd j (s.part p).evring.toNat 32 with
    | .ok v => .ok (j, v)
    | .error e => .error e

/-- Interrupts after CNT records; 0 means 1 (R296). -/
def ringCnt (blk : Nat) : Nat := if blk / 2 ^ 179 % 2 ^ 16 == 0 then 1 else blk / 2 ^ 179 % 2 ^ 16
def ringTmo (blk : Nat) : Nat := blk / 2 ^ 163 % 2 ^ 16

/-- Writes a record to a partition's ring; none while the ring is full (R296, R297). -/
def State.writeRec (s : State) (p : Nat) (r : BitVec 256) (irq : Bool) : Option State :=
  match s.ringBlock p with
  | .error e => some (s.ringErr p e)
  | .ok (j, blk) =>
    let n := 2 ^ (blk / 2 ^ 195 % 32)
    let prod := blk / 2 ^ 64 % 2 ^ 64
    let cons := blk % 2 ^ 64
    let phb := (prod / n + 1) % 2
    if n ≤ (prod + 2 ^ 64 - cons) % 2 ^ 64 then none
    else
      let va := blk / 2 ^ 200 + 32 * (prod % n)
      let poisoned := match s.translateCold (s.jobXlat j) .store va with
        | .ok pa => if s.poisonIn pa 32 then some pa else none
        | .error _ => none
      match poisoned, s.landWr j va 32 (r.toNat + phb) with
      | some pa, _ => some (s.ringErr p (.poison pa))
      | none, .error e => some (s.ringErr p e)
      | none, .ok s1 =>
        let s2 := match s1.landWr j ((s.part p).evring.toNat + 8) 8 (prod + 1) with
          | .ok t => t
          | .error _ => s1
        if irq then some ((s2.updPart p fun t => { t with irqs := t.irqs + 1 }).post (.eventRingIrqCount p)) else some s2

/-- A partition's records are written in order; one that finds no space is held, and so are those behind it. Nothing serves them
once the purser pair has halted SP64 (R297, R389). The second component says whether the record was written or dropped. -/
def State.putRec (s : State) (p : Nat) (r : BitVec 256) (irq : Bool) (task : Option Nat) : State × Bool :=
  let held := (s.updPart p fun t => { t with heldRecs := t.heldRecs ++ [⟨r, irq, task⟩] }, false)
  if s.phalt || !(s.part p).heldRecs.isEmpty then held
  else match s.writeRec p r irq with
    | some t => (t, true)
    | none => held

/-- The partition's MSI-X vector is raised (R297, R439). -/
def State.raiseMsix (s : State) (p : Nat) : State := s.updPart p fun t => { t with msix := t.msix + 1, irqs := 0 }

/-- CNT records with IRQ have been written since the last interrupt (R297). -/
def execEventRingIrqCount (part : Nat) (s : State) : Host.Outcome State Fault Refusal :=
  .next (match s.ringBlock part with
    | .ok b => if ringCnt b.2 ≤ (s.part part).irqs then s.raiseMsix part else s
    | .error _ => s)

/-- The oldest record with IRQ has waited TMO µs (R297). -/
def execEventRingIrqTimeout (part : Nat) (s : State) : Host.Outcome State Fault Refusal :=
  .next (match s.ringBlock part with
    | .ok b => if ringTmo b.2 != 0 && 0 < (s.part part).irqs then s.raiseMsix part else s
    | .error _ => s)

end Sys2Proof.Machine
end

