-- ==== Sys2Proof/Machine/Tasks.lean ====
section
/-! DEFINITION. Tasks of the Landing and how they complete (R285, R286), graphs' nodes (R292), phases, and cancels (R290). -/

namespace Sys2Proof.Machine

def State.task? (s : State) (t : Nat) : Option Task := Tbl.get? s.tasks t
def State.updTask (s : State) (id : Nat) (f : Task → Task) : State :=
  match s.task? id with
  | some t => { s with tasks := s.tasks.put id (f t) }
  | none => s

/-- Enters a task under the next number; its phase has started (R286). -/
def State.addTask (s : State) (t : Task) : State :=
  { s with
    tasks := s.tasks.put s.nextTask t
    nextTask := s.nextTask + 1
    phases := s.phases.map fun e => if e.1 == t.phase then (e.1, { e.2 with used := true }) else e }

/-- A task's completion rule has been met. -/
def Task.over (t : Task) : Bool := t.st == .ended || t.st == .signals

/-- The lowest partition of a mask. -/
def lowest (m : BitVec 128) : Nat := (bitsOf m).headD 0

/-- The ring that a packet's record goes to (R296). -/
def TaskK.part (k : TaskK) (home : Nat) : Nat :=
  match k with
  | .launch p => p.part.toNat
  | .gang p => lowest p.pmask
  | _ => home

/-- LEVEL of a record (R296). -/
def TaskK.level : TaskK → Nat
  | .launch _ | .gang _ => 1
  | .graph => 2
  | .phase _ => 3
  | .event _ => 5
  | _ => 0

/-- A task writes a record of its own: when CREC asks for it, and an EVENT always (R285, R288). -/
def Task.wantsRec (t : Task) : Bool := t.hdr.crec || (match t.kind with | .event _ => true | _ => false)

def Task.record (t : Task) : RecIn :=
  { level := t.kind.level, id := t.launchId, tag := t.hdr.tag, fault := t.fault, ucode := t.ucode, status := t.status,
    part := t.kind.part t.home, berth := t.berth }

/-! ### Berths (R273, R274) -/

/-- RD: the next ring packet, or the first of a LOOP range that is still running in the ring (R273, R279). -/
def Berth.rd (b : Berth) : Nat :=
  match b.frames.getLast? with
  | some f => (f.loop.map (·.1)).getD f.pos
  | none => 0

/-- Execution is in the ring, outside every LOOP. -/
def Berth.flat (b : Berth) : Bool :=
  match b.frames with
  | [f] => f.loop.isNone
  | _ => false

/-- A packet of the queue has been dispatched and has not completed (R274, R277). -/
def State.outstanding (s : State) (q : Nat) : Bool := s.tasks.any fun t => t.2.queue == q && t.2.parent.isNone

/-- An idle berth (R274). -/
def State.berthIdle (s : State) (b : Berth) : Bool :=
  b.rd == b.wr && b.flat && b.barrier.isNone && !s.outstanding b.queue

/-- Writes RD to RDPTR (R273). -/
def State.writeRd (s : State) (bn : Nat) : State :=
  match s.berth? bn with
  | some b =>
    let s1 := s.updBerth bn fun x => { x with after := 0 }
    match s1.landWr b.job b.rdptr 8 b.rd with
    | .ok t => t
    | .error _ => s1
  | none => s

/-- A berth that has become idle writes RD (R273). -/
def State.idleCheck (s : State) (q : Nat) : State :=
  match s.berthOf q with
  | some bn =>
    match s.berth? bn with
    | some b => if s.berthIdle b then s.writeRd bn else s
    | none => s
  | none => s

/-! ### Graphs (R292) -/

/-- Blocked and ready nodes with a failed predecessor complete CANCELLED, and so do their successors; nodes whose predecessors are all
OK are ready (R292). Successors have higher numbers, so one pass in order suffices. -/
def advanceNodes (now : Nat) (done : List (Option Nat)) : List Node → List Node
  | [] => []
  | n :: r =>
    let preds := n.preds.map fun p => done.getD p none
    let st := match n.st with
      | .blocked =>
        if preds.any fun x => x.any (· != 0) then .done 2 else if preds.all (· == some 0) then .ready now else .blocked
      | x => x
    let d := match st with
      | .done k => some k
      | _ => none
    { n with st := st } :: advanceNodes now (done ++ [d]) r

/-- A graph after some nodes' ends. -/
def Graph.advance (g : Graph) (now : Nat) : Graph := { g with nodes := advanceNodes now [] g.nodes }

def NodeSt.isDone : NodeSt → Bool
  | .done _ => true
  | _ => false

/-- The end of node i with a status. -/
def Graph.nodeDone (g : Graph) (i status now : Nat) : Graph :=
  Graph.advance { nodes := g.nodes.modify i fun n => { n with st := .done status },
                  firstFail := if g.firstFail == 0 then status else g.firstFail } now

/-- Nodes that have not started never start; each completes CANCELLED (R290). -/
def Graph.cancel (g : Graph) : Graph :=
  let open' (n : Node) : Bool := match n.st with
    | .blocked | .ready _ => true
    | _ => false
  { nodes := g.nodes.map fun n => if open' n then { n with st := .done 2 } else n,
    firstFail := if g.firstFail == 0 && g.nodes.any open' then 2 else g.firstFail }

def State.updGraph (s : State) (id : Nat) (f : Graph → Graph) : State :=
  match Tbl.get? s.graphs id with
  | some g => { s with graphs := s.graphs.put id (f g) }
  | none => s

/-! ### Phases (R286) -/

/-- The open phase of a queue. -/
def State.openPhase (s : State) (q : Nat) : Option Nat := (s.phases.find? fun e => e.2.queue == q && !e.2.closed).map (·.1)

/-- A new phase of a queue, under the next number. -/
def State.newPhase (s : State) (q : Nat) (job : BitVec 16) : State :=
  { s with phases := s.phases.put s.nextTask { queue := q, job := job, used := false, status := 0, closed := false },
           nextTask := s.nextTask + 1 }

/-- The first failing status of a phase's tasks. -/
def State.notePhase (s : State) (id status : Nat) : State :=
  match Tbl.get? s.phases id with
  | some p => { s with phases := s.phases.put id { p with status := if p.status == 0 then status else p.status } }
  | none => s

/-- A phase of a job has completed: the first failing status of its phases, and the ring of the job's record (R286, R296). -/
def State.noteJob (s : State) (t : Task) : State :=
  match t.kind with
  | .phase (_ + 1) =>
    s.updJob t.job fun j => { j with status := if j.status == 0 then t.status else j.status, home := some t.home }
  | _ => s

/-! ### The end of a task (R285, R286) -/

/-- Releases a gang's holds (R293). -/
def State.releaseHolds (s : State) (id : Nat) : State :=
  let ps := (s.parts.filter fun e => e.2.gang == some id).map (·.1)
  let s1 := ps.foldl (fun t p => t.updPart p fun x => { x with gang := none }) s
  { s1 with resvns := s1.resvns.del id }

/-- The Landing accepts a drained context: it is IDLE, and its registers keep their last values (R8, R31). -/
def Ctx.accepted (x : Ctx) : Ctx :=
  { x with lst := .idle, frozen := false, swapped := false, stopping := false, saved := false, preempt := false, killed := false,
           trappend := false, task := none, spec := none, wait := .none, gathers := [], gops := [], mbox := none,
           mboxKept := none, bound := [], held := [], asked := none, colls := [], expired := [], cancels := [], pendX := [], wire := [], credits := [],
           resend := [], used := [], mismatch := false, bad := [], recFault := none, trapToks := [], seg := Seg.reset }

/-- The signal of a task changes, and the task is gone: what it wrote is closed, its contexts are IDLE, and its phase or graph
learns its status (R285, R286, R292, R312). -/
def State.finishTask (s : State) (id : Nat) : State :=
  match s.task? id with
  | none => s
  | some t =>
    let s1 := s.csig t.job t.hdr.csig t.status
    let s2 := { s1 with tasks := s1.tasks.del id, graphs := s1.graphs.del id }
    let s3 := if t.writes.isEmpty then s2 else s2.bumpVersions t.job (s2.touched t.job t.writes)
    let s4 := t.ctxs.foldl (fun u c => u.updCtx c Ctx.accepted) s3
    let s5 := ((s4.releaseHolds id).notePhase t.phase t.status).noteJob t
    match t.parent with
    | some (g, i) => s5.updGraph g fun x => x.nodeDone i t.status s5.stepNo
    | none => s5.idleCheck t.queue

/-- A task's record is written, if it has one: its signal changes, which for an add is a release that first waits for the stores it counts
at its issue; a launch has counted them at its end (R268, R270, R285). -/
def State.signal (s : State) (id : Nat) : State :=
  match s.task? id with
  | none => s
  | some t =>
    let t1 : Task :=
      { t with st := .signals
               ports := if t.hdr.csig == 0 || t.status != 0 then some [] else t.ports.or (some (s.portsFor t.hdr.scope)) }
    let s1 := s.updTask id fun _ => t1
    if t1.clear then s1.finishTask id else s1

/-- A task's completion rule is met: CSIG is checked, the record is written or held, and then the signal changes; none where its translation
fails (R285, R297). -/
def State.endTask (s : State) (id status : Nat) (fault : BitVec 32) : State :=
  match s.task? id with
  | none => s
  | some t =>
    if t.over then s
    else
      let status := if t.cancelled then 2 else status
      let fault := if t.cancelled then 0 else fault
      let ce := s.csigErr t.job t.hdr.csig status
      let t1 : Task :=
        { t with st := .ended
                 hdr := if ce == some .xlat then { t.hdr with csig := 0 } else t.hdr
                 status := if ce.isSome then 3 else status
                 fault := match ce with
                   | some e => BitVec.ofNat 32 e.code
                   | none => fault }
      let s1 := match ce with
        | some e => s.landErr e
        | none => s
      let s2 := s1.updTask id fun _ => t1
      if t1.wantsRec then
        let r := s2.putRec (t1.kind.part t1.home) (s2.recWord t1.record) t1.hdr.irq (some id)
        if r.2 then r.1.signal id else r.1
      else s2.signal id

/-- Every other task of a phase has completed (R286). -/
def State.phaseDone (s : State) (id phase : Nat) : Bool := s.tasks.all fun e => e.1 == id || e.2.phase != phase

/-- A parent task whose children have all completed, with its status (R286, R290). -/
def State.parentDue (s : State) (id : Nat) (t : Task) : Option Nat :=
  if t.over then none
  else match t.kind with
    | .graph =>
      match Tbl.get? s.graphs id with
      | some g => if g.nodes.all fun n => n.st.isDone then some g.firstFail else none
      | none => none
    | .phase p => if s.phaseDone id p then some (((Tbl.get? s.phases p).map (·.status)).getD 0) else none
    | .cancel ts => if ts.all fun x => (s.task? x).isNone then some 0 else none
    | _ => none

/-- A job completes once Cimus has closed it and every phase of it in which a task has started has completed (R286; log 21). -/
def State.jobDue (s : State) (j : Nat) (x : Job) : Bool :=
  x.closed && !x.reported && (s.tasks.all fun t => t.2.job.toNat != j) && s.phases.all fun p => p.2.job.toNat != j || !p.2.used

/-- The record of a job (R296): the spec gives ID, TAG and BERTH no value in it (log 4). -/
def State.jobRecord (s : State) (x : Job) (home : Nat) : RecIn :=
  let v := Config.jobRec s.stepNo
  { level := 4, id := v.setWidth 64, tag := BitVec.ofNat 32 (bf v 95 64), status := x.status, part := home, berth := bf v 107 96 }

/-- A job's completion: its record goes to the ring of its queues' HOMEPART, and a job without a queue has none (R286, R296). -/
def State.reportJob (s : State) (j : Nat) (x : Job) : State :=
  let s1 := s.updJob (BitVec.ofNat 16 j) fun y => { y with reported := true }
  match x.home with
  | some h => (s1.putRec h (s1.recWord (s1.jobRecord x h)) false none).1
  | none => s1

/-- Completes the parents that are due, one after the other (R286). -/
def State.settle : Nat → State → State
  | 0, s => s
  | n + 1, s =>
    match s.tasks.findSome? fun e => (s.parentDue e.1 e.2).map fun st => (e.1, e.2.kind, st) with
    | some (id, k, st) =>
      let s1 := s.endTask id st 0
      let s2 := match k with
        | .phase p => { s1 with phases := s1.phases.del p }
        | _ => s1
      State.settle n s2
    | none => s.jobs.foldl (fun t e => if s.jobDue e.1 e.2 then t.reportJob e.1 e.2 else t) s

/-- A task ends, and with it the parents that waited for it. -/
def State.complete (s : State) (id status : Nat) (fault : BitVec 32) : State :=
  (s.endTask id status fault).settle (s.tasks.length + 1)

/-- A re-read of CONS finds space: the oldest held record of the partition is written, and its task's signal follows (R297). -/
def execEventRingSpace (part : Nat) (s : State) : Host.Outcome State Fault Refusal :=
  .next (match (s.part part).heldRecs with
    | r :: l =>
      if s.phalt then s
      else match s.writeRec part r.rec0 r.irq with
        | some t =>
          let t1 := t.updPart part fun x => { x with heldRecs := l }
          match r.task with
          | some id => (t1.signal id).settle (t1.tasks.length + 1)
          | none => t1
        | none => s
    | [] => s)

/-! ### Cancels (R290) -/

/-- A context is to be killed: it stops as for pre-emption and is then discarded (R290, R371). -/
def State.killCtx (s : State) (c : Nat) : State :=
  s.updCtx c fun x => { x with killed := true, stopping := true, swapped := false, trappend := false }

/-- A launch's completion condition holds: every context has drained with its lines written back, and the stores that its signal's release
counts are acknowledged (R31, R268). -/
def State.launchDone (s : State) (t : Task) : Bool :=
  acked (t.ports.getD (s.portsFor t.hdr.scope)) && t.ctxs.all fun c =>
    (s.ctx c).lst == .drained && (s.issueSet c).all fun d => (s.die d).cache.all fun l => l.dirty == 0

/-- A task that is no graph is cancelled (R290). A launch that has met its completion condition keeps its own status. A collective node
asks its Registrar. -/
def State.cancelLeaf (s : State) (id : Nat) (kill : Bool) : State :=
  match s.task? id with
  | none => s
  | some t =>
    match t.kind, t.st with
    | .launch _, .waiting => s.endTask id 2 0
    | .gang _, .waiting => s.endTask id 2 0
    | .launch _, .running | .gang _, .running =>
      if kill && !s.launchDone t then t.ctxs.foldl State.killCtx (s.updTask id fun x => { x with cancelled := true }) else s
    | .copy _, .running => if kill then s.updTask id fun x => { x with cancelled := true } else s
    | .collNode _, .running =>
      (match t.coll with
       | some c => s.askCancel t.job.toNat c.gid c.seq
       | none => s)
    | _, _ => s

/-- A task is cancelled with everything below it (R290). -/
def State.cancelTask (s : State) (id : Nat) (kill : Bool) : State :=
  let below := (s.tasks.filter fun e => e.2.parent.any (·.1 == id)).map (·.1)
  let s1 := s.updGraph id Graph.cancel
  (id :: below).foldl (fun t i => t.cancelLeaf i kill) s1

/-- The level of a task that a CANCEL targets (R290). -/
def TaskK.clevel : TaskK → Option CLevel
  | .launch _ | .gang _ => some .launch
  | .graph => some .graph
  | .phase _ => some .phase
  | _ => none

/-- A task matches a CANCEL's level and tag (R290). The header of a node's packet is ignored (R291). -/
def Task.matches (t : Task) (tag : BitVec 32) (l : CLevel) : Bool :=
  t.parent.isNone && !t.over && (l == .job || (t.kind.clevel == some l && t.hdr.tag == tag)) &&
    (match t.kind with | .cancel _ | .barrier _ => false | _ => true)

/-- The tasks that a cancelled target takes with it: a phase's tasks, or the target alone. -/
def State.under (s : State) (id : Nat) : List Nat :=
  match s.task? id with
  | some t =>
    (match t.kind with
     | .phase (p + 1) => (s.tasks.filter fun e => e.2.phase == p + 1).map (·.1)
     | _ => [id])
  | none => []

/-- Cancels the targets, which the list names (R290). -/
def State.cancelAll (s : State) (ids : List Nat) (kill : Bool) : State :=
  ids.foldl (fun t id => (t.under id).foldl (fun u i => u.cancelTask i kill) t) s

end Sys2Proof.Machine
end

