-- ==== Sys2Proof/Machine/Launch.lean ====
section
/-! DEFINITION. Starting and completing launches and gangs (R10, R13, R30 to R32, R90, R124, R125, R263, R266, R268, R269, R287, R293,
R305, R398), and the claim and discard of speculative runs (R298 to R301, R315 to R317). -/

namespace Sys2Proof.Machine

/-! ### Bollards of a launch (R263, R266) -/

/-- A bollard record that R263 refuses. -/
def bollardBad (r : BitVec 512) : Bool := bf r 511 128 != 0 || bf r 53 48 != 0 || bf r 63 62 == 3

/-- Maps one bollard argument: its live state by physical address, read from the record the first time; or the status and the
failed read. -/
def State.mapBollard (s : State) (job : BitVec 16) (v : Nat) : Except (Nat × Option LandErr) (State × Nat) :=
  if v % 64 != 0 || v / 2 ^ 56 != 0 then .error (7, none)
  else match s.translateCold (s.jobXlat job) .load v with
    | .error _ => .error (3, some .xlat)
    | .ok pa =>
      match s.bollard? pa with
      | some _ => .ok (s.updBollard pa fun b => { b with writeback := false }, pa)
      | none =>
        if s.poisonIn pa 64 then .error (3, some (.poison pa))
        else
          let r : BitVec 512 := BitVec.ofNat 512 (s.homeRd pa 64)
          if bollardBad r || 4096 ≤ s.bollards.length then .error (7, none)
          else
            let b : Bollard :=
              { va := v, job := job, excl := none, shared := [], relseq := BitVec.ofNat 48 (bf r 47 0), reqs := [], binders := 0,
                writeback := false }
            .ok ({ s with bollards := s.bollards.put pa b }, pa)

/-- Maps the bollards of a list of declared regions from index i on: the bindings, with one index for each address. -/
def State.mapBollards (args : List Byte) (job : BitVec 16) :
    Nat → List W64 → List Bound → State → Except (Nat × Option LandErr) (State × List Bound)
  | _, [], acc, s => .ok (s, acc)
  | i, e :: r, acc, s =>
    if !e.getLsbD 49 then State.mapBollards args job (i + 1) r acc s
    else match s.mapBollard job (argWord args (bf e 48 43)) with
      | .error x => .error x
      | .ok (t, pa) =>
        let k := match acc.find? (·.addr == pa) with
          | some b => b.bol
          | none => (acc.map (·.addr)).eraseDups.length
        State.mapBollards args job (i + 1) r (acc ++ [⟨i, k, pa⟩]) t

/-- The addresses that a list of bindings names. -/
def boundAddrs (l : List Bound) : List Nat := (l.map (·.addr)).eraseDups

/-- Contexts of a launch bind its bollards. -/
def State.bind (s : State) (l : List Bound) (n : Nat) : State :=
  (boundAddrs l).foldl (fun t a => t.updBollard a fun b => { b with binders := b.binders + n }) s

/-- A completed context no longer binds; the record of a bollard without binders is to be written back (R263). -/
def State.unbind (s : State) (c : Nat) : State :=
  (boundAddrs (s.ctx c).bound).foldl (fun t a =>
    let t1 := t.updBollard a fun b => { b with binders := b.binders - 1, writeback := b.binders ≤ 1 }
    t1.post (.bollardWriteback a)) s

/-- The bollards that a context's BRELs in progress name: the unit still shows it as a holder (R265). -/
def Ctx.releasing (x : Ctx) : List Nat :=
  x.gathers.filterMap fun g => match g.kind with
    | .brel r => x.bollardOf r
    | _ => none

/-- The unit releases each bollard a context still holds, as a BREL would, and withdraws its request (R266). -/
def State.releaseHeld (s : State) (c : Nat) : State :=
  let x := s.ctx c
  let s1 := (x.held ++ x.releasing).foldl (fun t a => t.updBollard a fun b => b.release c) s
  let s2 := match x.asked with
    | some (a, _) => s1.updBollard a fun b => { b with reqs := b.reqs.filter (·.1 != c) }
    | none => s1
  s2.updCtx c fun x => { x with held := [], asked := none }

/-! ### Launch entry -/

/-- What a launch starts: its kernel, partitions, whether streams, mask, berth, class and job. -/
structure Plan where
  prep : Prep
  parts : List Nat
  multi : Bool
  qmask : BitVec 4
  berth : Nat
  cls : Nat
  job : BitVec 16
  deriving DecidableEq, Repr

/-- GMODE of the launch record (R13, R293). -/
def Plan.gmode (p : Plan) : Nat := if p.parts.length == 1 then 0 else if p.multi then 2 else 1

/-- The contexts that run a launch: one on GANGBASE, or one for each stream (R293). -/
def Plan.ctxs (p : Plan) : List Nat := if p.gmode == 2 then p.parts else p.parts.take 1

/-- The quadrant mask of every die (R276). -/
def State.planQmask (s : State) (p : Plan) : Nat :=
  if p.qmask != 0 then p.qmask.toNat else if s.unprot then 3 else 15

/-- The launch record of the context on a partition (R13, R287 step 2, R293). -/
def State.planRec (s : State) (p : Plan) (lid : W64) (c : Nat) : BitVec 512 :=
  let base := p.parts.headD 0
  let dies := p.parts.foldl (fun m d => m ||| 2 ^ s.cdn d) 0
  BitVec.ofNat 512
    (lid.toNat * 2 ^ 448 + p.prep.entry.toNat * 2 ^ 392 + at' 320 64 dies + p.prep.khdr.toNat * 2 ^ 264 + at' 244 12 p.berth
      + at' 237 7 c + at' 230 7 base + at' 223 7 p.parts.length + at' 220 3 (if s.unprot then 2 else 4)
      + at' 216 4 (s.planQmask p) + at' 214 2 p.gmode + at' 208 6 (if p.gmode == 2 then p.parts.idxOf c else 0)
      + at' 207 1 (b2n s.unprot) + at' 199 8 p.prep.vdmask.toNat + at' 176 16 p.job.toNat + at' 174 2 p.cls)

/-- Region entry i of a launch (R215). -/
def regionEntry (args : List Byte) (l : List Bound) (i : Nat) (e : W64) : BitVec 256 :=
  let r := resolve args e
  let k := ((l.find? (·.region == i)).map (·.bol)).getD 0
  BitVec.ofNat 256 (2 ^ 255 + at' 253 2 r.1 + at' 251 1 (b2n (e.getLsbD 49)) + at' 239 12 k + at' 128 56 r.2.1 + at' 64 56 r.2.2)

/-- The launch's regions take the place of the last launch's in a partition's table (R215). -/
def Part.setRegions (t : Part) (p : Prep) (l : List Bound) : Part :=
  let own := p.regs.mapIdx fun i e => (i, regionEntry p.args l i e)
  { t with regions := own ++ t.regions.filter fun e => 127 ≤ e.1 }

/-- A die's checkpoint of its per-context registers, with the predicates and logs of the enabled quadrants (R383). -/
def Die.checkpoint (y : Die) : DieCkpt :=
  { quads := y.regs.qmask, prs := y.regs.lanes.map (·.pr), prb := y.regs.prb, views := y.regs.views, dcs := y.regs.dcs, dmask := y.regs.dmask,
    qmask := y.regs.qmask, toks := y.toks, felogs := y.felogs }

/-- The sequencer's checkpoint (R383). -/
def Ctx.checkpoint (x : Ctx) : SeqCkpt :=
  { sc := x.sc, pend := x.pendX, pc := x.pc, bsn := x.bsn, loops := x.loops, rm := x.rm, goc := x.goc, dmasks := x.dmasks, rotn := x.rotn }

/-- A command that outlives the launch that was on the die: a COPY packet's, or a detached one. -/
def Cmd.stays (c : Cmd) : Bool := c.detached || (match c.kind with | .packet _ _ _ _ => true | _ => false)

/-- Launch entry on a die (R90, R124, R125, R174, R191, R199, R206, R209, R213, R216, R259, R269, R305): the scratchpad stays as it lies
on a partition whose job has no Vitrine. -/
def Die.enter (y : Die) (n way : Nat) (p : Prep) (dmask : W64) (qmask : BitVec 4) (vsdef : BitVec 4) (vit : Bool) : Die :=
  let r := Die.reset n
  let lim := vsdef.toNat * way
  let z : Die :=
    { r with
      regs := { r.regs with
                views := p.vdef.mapIdx fun i v => if p.vdmask.getLsbD i then v else 0
                dmask := dmask
                qmask := qmask }
      consts := p.consts ++ List.replicate (64 - p.consts.length) 0
      w := vsdef
      vault := if vit then [] else y.vault.filter fun e => e.1 < lim
      vpoison := if vit then [] else y.vpoison.filter (· < lim)
      tlb := y.tlb
      cmds := y.cmds.filter Cmd.stays }
  { z with ckpt := some z.checkpoint }

/-- The argument block in SLM (R9, R287). -/
def argSlm (args : List Byte) : Tbl Byte := args.zipIdx.foldl (fun t e => Tbl.set 0 t (0x40 + e.2) e.1) []

/-- Launch entry on a context (R7, R10, R21, R31, R45, R399, R449). -/
def Ctx.enter (x : Ctx) (r : BitVec 512) (gang : List Nat) (p : Prep) (dm : W64) : Ctx :=
  let y : Ctx :=
    { Ctx.reset with
      lst := .entry
      sc := { Scal.reset with x := Scal.reset.x.set 1 0x40 }
      pc := p.entry
      slm := argSlm p.args
      lrec := r
      gparts := gang
      dmasks := dm
      icache := if p.iinv then [] else x.icache
      tlb := x.tlb }
  { y with seg := { Seg.reset with ckpt := some y.checkpoint } }

/-- DMASK at launch entry: the dies of the issue set (R124, R398). -/
def State.entryMask (s : State) (dies : List Nat) : W64 := w64 (dies.foldl (fun m d => m ||| 2 ^ s.cdn d) 0)

/-- Starts one context of a plan with its dies (R287 steps 2 to 5). -/
def State.enterCtx (s : State) (p : Plan) (lid : W64) (l : List Bound) (task : Option Nat) (spec : Option Spec) (c : Nat) : State :=
  let r := s.planRec p lid c
  let dies := issueSetOf r p.parts
  let dm := s.entryMask dies
  let j := s.job p.job
  let s1 := s.updCtx c fun x => { x.enter r p.parts p.prep dm with bound := l, task := task, spec := spec }
  dies.foldl (fun t d =>
    t.updDie d fun y => y.enter s.nlanes s.wayBytes p.prep dm (BitVec.ofNat 4 (bf r 219 216)) j.vsdef (j.vitcap != 0)) s1

/-- Starts a plan: the region tables, then every context (R287, R293). -/
def State.enterAll (s : State) (p : Plan) (lid : W64) (l : List Bound) (task : Option Nat) (spec : Option Spec) : State :=
  let s1 := p.parts.foldl (fun t d => t.updPart d fun x => x.setRegions p.prep l) s
  p.ctxs.foldl (fun t c => t.enterCtx p lid l task spec c) s1

/-! ### Launch and gang tasks (R287, R293) -/

/-- The partitions of a launch or gang. -/
def TaskK.parts : TaskK → List Nat
  | .launch p => [p.part.toNat]
  | .gang p => bitsOf p.pmask
  | _ => []

def TaskK.plan (k : TaskK) (t : Task) (p : Prep) : Plan :=
  { prep := p, parts := k.parts, multi := (match k with | .gang g => g.multi | _ => false),
    qmask := (match k with | .launch g => g.qmask | .gang g => g.qmask | _ => 0), berth := t.berth, cls := t.cls, job := t.job }

/-- The next LAUNCHID of a job: no two launches of a job have the same (R13; log 4). -/
def State.takeLid (s : State) (j : BitVec 16) : State × W64 :=
  (s.updJob j fun x => { x with nextLid := x.nextLid + 1 }, Config.launchId j.toNat + w64 (s.job j).nextLid)

/-- A task ends with the status of a failed check or read (R263, R287). -/
def State.failTask (s : State) (id : Nat) (e : Nat × Option LandErr) : State :=
  match e.2 with
  | some x => (s.landErr x).endTask id e.1 (BitVec.ofNat 32 x.code)
  | none => s.endTask id e.1 0

/-- Starts the launch or gang of a task whose partitions are free or held (R287 steps 2 to 5). -/
def State.startTask (s : State) (id : Nat) : State :=
  match s.task? id with
  | none => s
  | some t =>
    match t.prep with
    | none => s
    | some p =>
      match State.mapBollards p.args t.job 0 p.regs [] s with
      | .error e => s.failTask id e
      | .ok (s1, l) =>
        let pl := t.kind.plan t p
        let (s2, lid) := s1.takeLid t.job
        let s3 := (s2.bind l pl.ctxs.length).enterAll pl lid l (some id) none
        s3.updTask id fun x => { x with st := .running, launchId := lid, ctxs := pl.ctxs, prep := none }

/-- A speculative run on a partition is in the way of other work: it is discarded (R293, R309, R319). -/
def State.clearSpec (s : State) (p : Nat) : State := if (s.ctx p).spec.isSome then s.discard p 62 else s

/-- The class of a waiting task: a gang's own, which its rollbacks have raised (R293). -/
def State.waitCls (s : State) (id : Nat) (t : Task) : Nat := ((Tbl.get? s.resvns id).map (·.cls)).getD t.cls

/-- A waiting task of a higher class has this partition next (R293, R294). -/
def State.outranked (s : State) (id p cls : Nat) : Bool :=
  s.tasks.any fun e => e.1 != id && e.2.st == .waiting && s.waitCls e.1 e.2 < cls &&
    (match Tbl.get? s.resvns e.1 with
     | some r => r.todo.head? == some p
     | none => e.2.kind.parts.head? == some p)

/-- A waiting launch's partition is free, or the next partition of a reserving gang is obtained; with every partition held the gang
commits (R277, R293). Where tasks wait for one partition, the higher class has it first. -/
def execPartitionObtained (task : Nat) (s : State) : Host.Outcome State Fault Refusal :=
  .next (match s.task? task with
    | none => s
    | some t =>
      if t.st != .waiting then s
      else match Tbl.get? s.resvns task with
        | none =>
          let p := t.kind.parts.headD 0
          if s.outranked task p t.cls then s
          else if s.partFree p none then (s.startTask task).settle (s.tasks.length + 1) else s.clearSpec p
        | some r =>
          match r.todo with
          | [] => s
          | p :: rest =>
            if s.outranked task p r.cls then s
            else if !s.partFree p none then s.clearSpec p
            else
              let s1 := s.updPart p fun x => { x with gang := some task }
              let s2 := { s1 with resvns := s1.resvns.put task { r with todo := rest, held := r.held ++ [p] } }
              if rest.isEmpty then (s2.startTask task).settle (s.tasks.length + 1) else s2)

/-- 2 µs after its first hold a gang rolls back: every hold is released, and its class rises by one (R293). -/
def execGangReserveTimeout (task : Nat) (s : State) : Host.Outcome State Fault Refusal :=
  .next (match Tbl.get? s.resvns task with
    | none => s
    | some r =>
      if r.held.isEmpty || r.todo.isEmpty then s
      else
        let s1 := r.held.foldl (fun t p => t.updPart p fun x => { x with gang := none }) s
        { s1 with resvns := s1.resvns.put task { todo := r.held ++ r.todo, held := [], cls := r.cls - 1 } })

/-! ### Drain and completion (R31, R268) -/

/-- The issued slots of a die have delivered, and no engine command of its context is left (R31). -/
def Die.drained (y : Die) : Bool :=
  y.queue.isEmpty && y.flights.isEmpty && y.mmuls.isEmpty && y.mq.isEmpty && y.gq.isEmpty && y.rq.isEmpty && y.ring.isEmpty &&
    y.heldLanes.isEmpty && y.permW.isNone && y.redo.isNone && y.bacq.isNone && !y.stopped && y.cmds.all Cmd.stays

/-- Every issued die slot, engine command and global store of an exited launch has completed (R31). -/
def State.drained (s : State) (c : Nat) : Bool :=
  let x := s.ctx c
  x.lst == .exited && !x.frozen && !x.swapped && !x.stopping && x.port.isEmpty && x.gathers.isEmpty && x.gops.isEmpty &&
    x.wire.isEmpty && x.seg.closing.isNone && (x.seg.rewind.all fun r => r.replaying) && x.mbox.isNone && !x.mismatch && x.wait == .none && x.cancels.isEmpty &&
    (x.colls.all fun r => match r.st with | .done _ => true | _ => false) && (s.issueSet c).all fun d => (s.die d).drained

/-- The launch is DRAINED; a speculative run is FINISHED (R31, R319). -/
def execLaunchDrained (ctx : Nat) (s : State) : Host.Outcome State Fault Refusal :=
  .next (if s.drained ctx then
      s.updCtx ctx fun x =>
        { x with lst := .drained
                 spec := x.spec.map fun r => if r.st == .discarding then r else { r with st := .finished } }
    else s)

/-- Every context of the task has drained: every dirty line is written back, and once the stores counted at that point are acknowledged the
bollards are released and the task completes (R263, R266, R268, R270). -/
def execLaunchCompletion (ctx : Nat) (s : State) : Host.Outcome State Fault Refusal :=
  .next (match (s.ctx ctx).task with
    | none => s
    | some id =>
      match s.task? id with
      | none => s
      | some t =>
        let done := t.st == .running && (s.ctx ctx).spec.isNone && t.ctxs.all (fun c => (s.ctx c).lst == .drained)
        if done then
          let ports := t.ports.getD (s.portsFor t.hdr.scope)
          let s1 := t.ctxs.foldl (fun u c => (s.issueSet c).foldl (fun v d => v.flushDie d false) u) s
          let s2 := s1.updTask id fun x => { x with ports := some ports, ucode := (s.ctx (t.ctxs.headD 0)).ucode }
          if acked ports then (t.ctxs.foldl (fun u c => (u.releaseHeld c).unbind c) s2).complete id t.status t.fault
          else s2
        else s)

/-! ### History and prediction (R298 to R301) -/

/-- w rotated left by i. -/
def rotl (w : W64) (i : Nat) : W64 := w.rotateLeft i

/-- The argument copy with every don't-care word zero. -/
def maskArgs (args : List Byte) (dc : W64) : List Byte := args.mapIdx fun i b => if dc.getLsbD (i / 4) then 0 else b

/-- HASH (R299). -/
def argHash (args : List Byte) (dc : W64) : W64 :=
  let m := maskArgs args dc
  (upto 32).foldl (fun (h : W64) i => h ^^^ rotl (w64 (argWord m (2 * i))) i) 0

/-- The history entry of a dispatched LAUNCH or GANG (R298). A packet whose kernel could not be read has ENTRY and HASH zero. -/
def histEntry (k : TaskK) (p : Option Prep) : Hist :=
  let e := (p.map (·.entry)).getD 0
  let h := (p.map fun p => argHash p.args p.dontcare).getD 0
  match k with
  | .gang g => ⟨g.khdr, e, true, g.multi, 0, g.pmask, g.qmask, h, g.args⟩
  | .launch g => ⟨g.khdr, e, false, false, g.part, 0, g.qmask, h, g.args⟩
  | _ => ⟨0, e, false, false, 0, 0, 0, h, 0⟩

/-- Hi equals Hi+p for i from 0 to 3 (R300). -/
def periodOk (h : List Hist) (p : Nat) : Bool := p + 4 ≤ h.length && (upto 4).all fun i => h[i]? == h[i + p]?

/-- The prediction of a history (R300). -/
def predict (h : List Hist) : Option Hist :=
  match [1, 2, 3, 4].find? (periodOk h) with
  | some p => h[p - 1]?
  | none => none

/-- A dispatch updates the confidence, then the history and the prediction (R298, R300, R301). -/
def Berth.note (b : Berth) (e : Hist) (now : Nat) : Berth :=
  let h := (e :: b.hist).take 8
  { b with
    conf := match b.pred with
      | some p => if p == e then min 3 (b.conf + 1) else 0
      | none => b.conf
    hist := h
    pred := predict h
    predAge := now }

/-! ### Match, claim, discard (R315 to R317) -/

/-- The run of a berth's prediction. -/
def State.runOf (s : State) (b : Nat) : Option (Nat × Spec) :=
  s.ctxs.findSome? fun e => e.2.spec.bind fun r => if r.berth == b && r.st != .discarding then some (e.1, r) else none

/-- Every covering entry holds its recorded VERSION (R315). -/
def State.versionsHold (s : State) (job : BitVec 16) (r : Spec) : Bool :=
  let w := s.jobWide job
  r.versions.all fun v => (Tbl.get? w v.1).any fun e => rgVersion e == v.2

/-- The packet is the launch that the run ran (R315). -/
def State.likeRun (s : State) (c : Nat) (r : Spec) (k : TaskK) (p : Prep) : Bool :=
  match k with
  | .launch g =>
    g.khdr == r.pred.khdr && p.entry == lEntry (s.ctx c).lrec && g.part == r.pred.part && g.qmask == r.pred.qmask && !g.iinv &&
      maskArgs p.args r.dontcare == maskArgs r.args r.dontcare
  | _ => false

/-- The packet matches the run (R315). -/
def State.matchRun (s : State) (c : Nat) (r : Spec) (job : BitVec 16) (k : TaskK) (p : Prep) : Bool :=
  s.likeRun c r k p && s.versionsHold job r

/-- Commits one Vitrine line of a die: its masked bytes are stored at home; one that cannot be read is written with poison, and the bank of
the system way records it (R316, R381, R391). -/
def State.commitLine (s : State) (d : Nat) (l : VLine) : State :=
  if s.vitBad d (l.line * 64) then
    (s.addPoison (l.line * 64)).logErr (s.vaultBank d)
      { uc := true, kind := 2, w1 := w64 (l.line * 64), w2 := Config.syndrome s.stepNo }
  else (bitsOf l.mask).foldl (fun u i => u.memWr (l.line * 64 + i) 1 (bf l.data (8 * i + 7) (8 * i))) s

/-- Commits the Vitrine lines of a die to home (R316). -/
def State.commitVit (s : State) (d : Nat) : State :=
  let ls := (s.die d).vitrine
  ((ls.foldl (fun t l => t.commitLine d l) s).updDie d fun y => { y with vitrine := [], vbad := [] }).addCtr d 63 ls.length

/-- The real launch's don't-care words in SLM (R309). -/
def realArgs (t : Tbl Byte) (args : List Byte) (dc : W64) : Tbl Byte :=
  args.zipIdx.foldl (fun t e => if dc.getLsbD (e.2 / 4) then Tbl.set 0 t (0x40 + e.2) e.1 else t) t

/-- Claims the run on context c for a task (R316); a bollard failure completes the task with BOLLARD_RECORD and discards the run. -/
def State.claim (s : State) (c : Nat) (r : Spec) (id : Nat) (t : Task) (p : Prep) : State :=
  match State.mapBollards p.args t.job 0 p.regs [] s with
  | .error e =>
    ((match e.2 with
      | some x => s.landErr x
      | none => s).endTask id 7 0).discard c 62
  | .ok (s1, l) =>
    let (s2, lid) := s1.takeLid t.job
    let d := lPart (s.ctx c).lrec
    let s3 := ((s2.bind l 1).updPart d fun x => x.setRegions p l).updCtx c fun x =>
      { x with
        lrec := (x.lrec &&& BitVec.ofNat 512 (2 ^ 448 - 1)) ||| BitVec.ofNat 512 (lid.toNat * 2 ^ 448)
        slm := realArgs x.slm p.args r.dontcare
        bound := l
        task := some id
        spec := none }
    let s4 := (s3.commitVit d).addCtr d (if r.st == .finished then 57 else 58) 1
    s4.updTask id fun x => { x with st := .running, launchId := lid, ctxs := [c], prep := none }

end Sys2Proof.Machine
end

