-- ==== Sys2Proof/Machine/Coll.lean ====
section
/-! DEFINITION. Collectives and the Registrar (R416 to R432): the descriptor and its checks, COLL, CWAIT and CCANCEL, accession
numbers, grants, the data that move, cancels, and backup and failover. -/

namespace Sys2Proof.Machine

/-! ### The descriptor (R420, R421) -/

def cSrc (r : BitVec 512) : Nat := bf r 511 456
def cDst (r : BitVec 512) : Nat := bf r 455 400
def cCount (r : BitVec 512) : Nat := bf r 399 368
def cGid (r : BitVec 512) : Nat := bf r 367 352
def cRoot (r : BitVec 512) : Nat := bf r 351 340
def cOp (r : BitVec 512) : Nat := bf r 339 337
def cRop (r : BitVec 512) : Nat := bf r 336 335
def cExact (r : BitVec 512) : Bool := r.getLsbD 334
def cType (r : BitVec 512) : Option ETy := ETy.ofCode (bf r 333 330)
def cPart (r : BitVec 512) : Nat := bf r 329 323

/-- All-reduce or reduce-scatter. -/
def cReduces (r : BitVec 512) : Bool := cOp r == 0 || cOp r == 2

/-- The types that reductions accept (R420). -/
def redType : ETy → Bool
  | .s32 | .s64 | .n32 | .n64 | .bf16 | .fp16 | .fp32 => true
  | _ => false

def cBits (r : BitVec 512) : Nat := ((cType r).map ETy.bits).getD 0

/-- Elements of SRC and DST for n ranks (R421). -/
def cSrcLen (r : BitVec 512) (n : Nat) : Nat := if cOp r == 2 || cOp r == 4 then n * cCount r else cCount r
def cDstLen (r : BitVec 512) (n : Nat) : Nat := if cOp r == 1 || cOp r == 4 then n * cCount r else cCount r

/-- Bytes that a number of elements spans (R420). -/
def cBytes (r : BitVec 512) (n : Nat) : Nat := (n * cBits r + 7) / 8

/-- BAD_DESC: the checks that need no group (R423, check 1). PART is zero but for a graph node. -/
def collBad (r : BitVec 512) (node : Bool) : Bool :=
  match cType r with
  | none => true
  | some ty =>
    let es := if ty.bits < 8 then 1 else ty.bits / 8
    bf r 322 0 != 0 || (!node && cPart r != 0) || 4 < cOp r || cCount r == 0 || 2 ^ 28 < cCount r ||
      (cReduces r && (cRop r == 3 || !redType ty)) || (!cReduces r && cRop r != 0) ||
      (cExact r && !(cReduces r && cRop r == 0 && ty.isF)) || (cOp r != 3 && cRoot r != 0) || cSrc r % es != 0 ||
      cDst r % es != 0

/-- The ranks of this module's members with their partitions. -/
def State.hereRanks (s : State) (g : Group) : List (Nat × Nat) :=
  (g.members.zipIdx.filter (·.1.1 == s.mid.toNat)).map fun e => (e.2, e.1.2)

/-- A buffer lies wholly within one valid entry of the partition's table that gives the access (R420). -/
def State.bufOk (s : State) (p lo n acc : Nat) : Bool :=
  (s.part p).regions.any fun e => rgHolds e.2 lo ((lo : Int) + n - 1) && rgAcc e.2 &&& acc == acc

/-- SRC and DST overlap other than R420 allows. -/
def collOverlap (r : BitVec 512) (n : Nat) : Bool :=
  let a := (cSrc r, cBytes r (cSrcLen r n))
  let b := (cDst r, cBytes r (cDstLen r n))
  rangesMeet a b && !(a == b && (cOp r == 0 || cOp r == 3))

/-- The STATUS of a handle: the first failing check (R423). -/
def State.collStatus (s : State) (job : BitVec 16) (part : Nat) (node : Bool) (r : BitVec 512) : Nat :=
  if collBad r node then 1
  else match s.group? job (cGid r) with
    | none => 3
    | some g =>
      let n := g.members.length
      if !g.members.contains (s.mid.toNat, part) then 4
      else if cOp r == 3 && n ≤ cRoot r then 1
      else if !s.bufOk part (cSrc r) (cBytes r (cSrcLen r n)) 1 || !s.bufOk part (cDst r) (cBytes r (cDstLen r n)) 2 then 2
      else if collOverlap r n then 5
      else 0

/-- The destination range of a checked collective. -/
def State.collDst (s : State) (job : BitVec 16) (r : BitVec 512) : Nat × Nat :=
  (cDst r, cBytes r (cDstLen r (((s.group? job (cGid r)).map (·.members.length)).getD 1)))

/-- A handle (R423). -/
def handle (gid seq status : Nat) : W64 := w64 (at' 48 16 gid + at' 16 32 seq + at' 0 8 status)

/-- The issue count of a member, which the issue raises by one (R419). -/
def State.takeSeq (s : State) (job : BitVec 16) (gid part : Nat) : State × Nat :=
  let n := ((s.group? job gid).map fun g => Tbl.get 0 g.counts part).getD 0
  ({ s with groups := s.groups.map fun g =>
      if g.job == job.toNat && g.gid == gid then { g with counts := g.counts.put part ((n + 1) % 2 ^ 32) } else g }, n)

/-! ### The records of contexts and graph nodes -/

def CollRec.isDone (r : CollRec) : Bool := match r.st with | .done _ => true | _ => false

/-- A new record; of 64, the oldest completed one is reused (R425). -/
def Ctx.addColl (x : Ctx) (r : CollRec) : Ctx :=
  if x.colls.length < 64 then { x with colls := x.colls ++ [r] }
  else
    let old := (x.colls.filter CollRec.isDone).foldl (fun (a : Option CollRec) c =>
      match a with
      | some b => if c.order < b.order then some c else some b
      | none => some c) none
    match old with
    | some o =>
      let code := match o.st with
        | .done k => k
        | _ => 0
      { x with colls := x.colls.filter (· != o) ++ [r], expired := x.expired ++ [(o.gid, o.seq, code)] }
    | none => { x with colls := x.colls ++ [r] }

/-- Who issues collectives: a context by its number, a collective node of a graph by 256 + its task. -/
def State.collsOf (s : State) (who : Nat) : List CollRec :=
  if who < 256 then (s.ctx who).colls else ((s.task? (who - 256)).bind (·.coll)).toList

def State.updColl (s : State) (who idx : Nat) (f : CollRec → CollRec) : State :=
  if who < 256 then s.updCtx who fun x => { x with colls := x.colls.modify idx f }
  else s.updTask (who - 256) fun t => { t with coll := t.coll.map f }

def State.collJob (s : State) (who : Nat) : BitVec 16 :=
  if who < 256 then lJob (s.ctx who).lrec else ((s.task? (who - 256)).map (·.job)).getD 0

def State.collPart (s : State) (who : Nat) (r : CollRec) : Nat :=
  if who < 256 then lPart (s.ctx who).lrec else cPart r.desc

/-- Every issuer with a record. -/
def State.issuers (s : State) : List Nat :=
  (s.ctxs.filter fun e => !e.2.colls.isEmpty).map (·.1) ++
    (s.tasks.filter fun e => e.2.coll.isSome).map fun e => 256 + e.1

/-- The records of this module's members for a key: issuer, place, partition, record. -/
def State.recsOf (s : State) (job : BitVec 16) (gid seq : Nat) : List (Nat × Nat × Nat × CollRec) :=
  s.issuers.flatMap fun w =>
    if s.collJob w != job then []
    else ((s.collsOf w).zipIdx.filter fun e => e.1.gid == gid && e.1.seq == seq).map fun e => (w, e.2, s.collPart w e.1, e.1)

/-! ### COLL (R423) -/

/-- The descriptor at SLM slma × 64, as the bundle reads it (R423). -/
def State.collDesc (s : State) (slma : BitVec 12) : BitVec 512 :=
  let x := s.cx
  BitVec.ofNat 512 ({ x with slm := s.cur.slm0.getD x.slm }.slmRd (slma.toNat * 64) 64)

/-- COLL at the sequencer once its checks have passed: the handle, and on ISSUED the record and its release. -/
def State.issueColl (s : State) (xd : Reg) (tout : Tok) (r : BitVec 512) : State :=
  let x := s.cx
  let job := lJob x.lrec
  let part := lPart x.lrec
  let st := s.collStatus job part false r
  if st != 0 then s.setX xd (handle (cGid r) 0 st)
  else
    let (s1, n) := s.takeSeq job (cGid r) part
    let c : CollRec :=
      { gid := cGid r, seq := n, desc := r, tout := tout, bsn := x.bsn, dies := s.reporters, dst := s.collDst job r, st := .waitTok,
        order := 0 }
    let s2 := (s1.gather .coll (s.portsAt .pod)).updCx fun y => y.addColl c
    ((s2.openRanges job [c.dst]).setX xd (handle c.gid c.seq 0)).unrepeatable s.cur.ctx

/-- COLL (R423): a die issues it once its tokens are DONE, and its TOUT is PEND if the collective was issued, else DONE at issue, whatever a
lower slot of the bundle does with it (R71). -/
def execColl (xd : Reg) (tout : Tok) (tin : Toks) (slma : BitVec 12) (s : State) : Host.Outcome State Fault Refusal :=
  .next (match s.cur.side with
    | .seq =>
      if s.slmSize < slma.toNat * 64 + 64 then s.takeTrap { cause := 0x0006 }
      else if s.cx.isSpec || s.cx.commitWaits || 64 ≤ (s.cx.colls.filter fun c => !c.isDone).length then s.stall
      else s.issueColl xd tout (s.collDesc slma)
    | .die =>
      if s.y0.tokWait tout (Toks.named tin) then s.stall
      else match s.driver s.cur.die with
        | none => s
        | some c =>
          if (s.ctx c).colls.any fun r => r.bsn == s.pbsn && r.st == .waitTok then
            (s.report (s.rep true 0 0 [])).updDx fun y => y.setTok tout true
          else s.updDx fun y => y.setTok tout false)

/-! ### CWAIT and CCANCEL (R425, R426) -/

/-- What a handle names: nothing, a record, or a reused record's code. -/
inductive HRef where
  | none
  | live (r : CollRec)
  | expired (code : Nat)
  deriving DecidableEq, Repr

def Ctx.lookup (x : Ctx) (h : W64) : HRef :=
  let g := bf h 63 48
  let q := bf h 47 16
  if bf h 15 0 != 0 then .none
  else match x.colls.find? fun r => r.gid == g && r.seq == q with
    | some r => .live r
    | none =>
      match x.expired.find? fun e => e.1 == g && e.2.1 == q with
      | some e => .expired e.2.2
      | none => .none

/-- The code that CWAIT returns, if the collective has completed (R425). -/
def HRef.code : HRef → Option Nat
  | .none => some 4
  | .expired _ => some 6
  | .live r =>
    match r.st with
    | .done k => some k
    | _ => Option.none

/-- The code that CWAIT returns now: its acquire waits for the stores that the ports have counted; a bad handle waits for nothing (R425,
R432). -/
def HRef.ready (h : HRef) (ports : List (Nat × Nat × Nat)) : Option Nat :=
  match h with
  | .none => some 4
  | h => if acked ports then h.code else Option.none

/-- CWAIT (R425). -/
def execCwait (xd xa : Reg) (s : State) : Host.Outcome State Fault Refusal :=
  .next (match s.cur.side with
    | .die => s
    | .seq =>
      if s.cx.isSpec then s.stall
      else match (s.cx.lookup (s.x xa)).ready (s.portsAt .pod) with
        | some k => s.setX xd (w64 k)
        | none => (s.waitFor (.coll xd (s.x xa) (s.portsAt .pod))).pendX xd)

/-- CWAIT.test (R425). -/
def execCwaitTest (xd xa : Reg) (s : State) : Host.Outcome State Fault Refusal :=
  .next (match s.cur.side with
    | .die => s
    | .seq => if s.cx.isSpec then s.stall else s.setX xd (w64 ((s.cx.lookup (s.x xa)).code.getD 5)))

/-- CCANCEL (R426): the context decides for a completed collective; else the Registrar does. -/
def execCcancel (xd xa : Reg) (s : State) : Host.Outcome State Fault Refusal :=
  .next (match s.cur.side with
    | .die => s
    | .seq =>
      if s.cx.isSpec || s.cx.commitWaits then s.stall
      else
        let s1 := s.unrepeatable s.cur.ctx
        match s.cx.lookup (s.x xa) with
        | .none => s1.setX xd 2
        | .expired k => s1.setX xd (if k == 1 then 0 else 1)
        | .live r =>
          match r.st with
          | .done k => s1.setX xd (if k == 1 then 0 else 1)
          | _ => (s1.updCx fun x => { x with cancels := x.cancels ++ [⟨xd, x.bsn, r.gid, r.seq⟩] }).pendX xd)

/-- A context whose CWAIT's collective has completed goes on; not while it is frozen or stopped (R331, R425). -/
def State.wakeColl (s : State) (c : Nat) : State :=
  match (s.ctx c).wait with
  | .coll xd h ports =>
    if s.evaluates c then
      match ((s.ctx c).lookup h).ready ports with
      | some k => (s.updCtx c fun x => { x with wait := .none }).deliverX c xd (s.ctx c).lastBsn (w64 k)
      | none => s
    else s
  | _ => s

/-! ### The data (R421, R422) -/

/-- Element i of b bits of a buffer. -/
def elemAt (b v i : Nat) : Nat := v / 2 ^ (b * i) % 2 ^ b

/-- One round of the canonical tree: neighbours at distance 1 are added (R422). -/
def treeRound : List Nat → List Nat
  | a :: b :: r => (fAdd .fp32 .rne a b).1 :: treeRound r
  | l => l

/-- The ORDERED sum: halving the ranks until one is left. Neighbours at distance 2^k are neighbours after k rounds. -/
def treeSum : Nat → List Nat → Nat
  | 0, l => l.headD 0
  | n + 1, l =>
    match l with
    | [] => 0
    | [a] => a
    | l => treeSum n (treeRound l)

/-- The combination of one element over the ranks (R422). -/
def collReduce (ty : ETy) (rop : Nat) (exact : Bool) (v : List Nat) : Nat :=
  let f := fmtOf ty
  if ty.isF then
    -- the first term meets itself, so that a NaN is canonical for one rank too (R40)
    if rop == 1 then v.foldl (fMax f) (v.headD 0)
    else if rop == 2 then v.foldl (fMin f) (v.headD 0)
    else if exact then ((v.foldl (fun a x => a.addF (FV.dec f x)) Lacc.zero).round f .rne).1
    else (fToF .fp32 f .rne false (treeSum v.length (v.map fun x => (fToF f .fp32 .rne false x).1))).1
  else
    let sg := ty.isS
    let le (a b : Nat) : Bool := intVal sg ty.bits a ≤ intVal sg ty.bits b
    if rop == 1 then v.tail.foldl (fun a b => if le a b then b else a) (v.headD 0)
    else if rop == 2 then v.tail.foldl (fun a b => if le b a then b else a) (v.headD 0)
    else v.foldl (· + ·) 0 % 2 ^ ty.bits

/-- The elements that rank r's DST receives from the sources of all ranks, as numbers by rank (R421). -/
def collOut (d : BitVec 512) (ty : ETy) (srcs : List Nat) (r : Nat) : List Nat :=
  let n := cCount d
  let b := ty.bits
  let red (base i : Nat) : Nat := collReduce ty (cRop d) (cExact d) (srcs.map fun v => elemAt b v (base + i))
  match cOp d with
  | 0 => (upto n).map (red 0)
  | 1 => srcs.flatMap fun v => (upto n).map (elemAt b v)
  | 2 => (upto n).map (red (r * n))
  | 3 => (upto n).map (elemAt b (srcs.getD (cRoot d) 0))
  | _ => srcs.flatMap fun v => (upto n).map fun i => elemAt b v (r * n + i)

/-- Reads n bytes of a job's buffer; none when a translation fails or the data are poisoned. -/
def State.bufRd (s : State) (job : BitVec 16) (va : Nat) : Nat → Except LandErr (List Byte)
  | 0 => .ok []
  | n + 1 =>
    match s.landRd job va 1, s.bufRd job (va + 1) n with
    | .ok v, .ok l => .ok (BitVec.ofNat 8 v :: l)
    | .error e, _ => .error e
    | _, .error e => .error e

/-- Writes bytes to a job's buffer in order; stops at a failed translation. -/
def State.bufWr (job : BitVec 16) : Nat → List Byte → State → State × Bool
  | _, [], s => (s, true)
  | va, b :: r, s =>
    match s.landWr job va 1 b.toNat with
    | .ok t => State.bufWr job (va + 1) r t
    | .error _ => (s, false)

/-- The bytes of a list of elements; a last half byte keeps the other half of what was there (R420). -/
def packElems (b : Nat) (es : List Nat) (old : Nat) : List Byte :=
  let v := es.zipIdx.foldl (fun a e => a + e.1 * 2 ^ (b * e.2)) 0
  let n := (es.length * b + 7) / 8
  if es.length * b % 8 == 0 then bytesOf v n else bytesOf (v + old / 16 * 16 * 2 ^ (8 * (n - 1))) n

/-! ### Accessions (R427 to R429) -/

def State.accn? (s : State) (job gid seq : Nat) : Option Accn :=
  s.regr.accs.find? fun a => a.job == job && a.gid == gid && a.seq == seq

/-- A new accession of a key. -/
def Accn.new (job gid seq : Nat) : Accn :=
  { job := job, gid := gid, seq := seq, num := 0, st := .unassigned, wasCancelled := false, requested := [], started := [],
    completed := [], elsewhere := [], arrived := false, mirrored := false, mismatch := false, fault := false, srcs := [] }

/-- Changes an accession, which is entered if it is not known yet. -/
def State.updAccn (s : State) (job gid seq : Nat) (f : Accn → Accn) : State :=
  let l := s.regr.accs
  let l1 := if (s.accn? job gid seq).isSome then
      l.map fun a => if a.job == job && a.gid == gid && a.seq == seq then f a else a
    else l ++ [f (Accn.new job gid seq)]
  { s with regr := { s.regr with accs := l1 } }

/-- The group of an accession is module-local. -/
def State.accLocal (s : State) (a : Accn) : Bool := s.keyLocal a.job a.gid

/-- This module's Registrar instance serves the accession (R418). -/
def State.serves (s : State) (a : Accn) : Bool := s.servesKey a.job a.gid

/-- a precedes b (R427). -/
def precedes (a b : BitVec 32) : Bool := 1 ≤ (b - a).toNat && (b - a).toNat ≤ 2 ^ 31 - 1

/-- The smallest unretired number of a stream, or NEXT (R427). -/
def State.oldest (s : State) (loc : Bool) (next : BitVec 32) : BitVec 32 :=
  (s.regr.accs.filter fun a => s.accLocal a == loc && a.st != .unassigned && a.st != .retired).foldl
    (fun m a => if precedes a.num m then a.num else m) next

/-- NEXT of the instance that serves an accession. -/
def State.nextOf (s : State) (loc : Bool) : BitVec 32 := if loc then s.regr.localNext else s.regr.next

/-- Decisions go to the backup first where there is one (R431). -/
def State.mirrors (s : State) (a : Accn) : Bool := !s.accLocal a && s.regr.backup.isSome

/-- A decision about a key awaits the backup's acknowledgement, or stands at once. -/
def State.decide' (s : State) (a : Accn) : State :=
  if s.mirrors a then
    let s1 := s.updAccn a.job a.gid a.seq fun x => { x with mirrored := false }
    { s1 with regr := { s1.regr with unacked := s1.regr.unacked ++ [(a.job, a.gid, a.seq)] } }
  else s.updAccn a.job a.gid a.seq fun x => { x with mirrored := true }

/-- A message of an older epoch, which is discarded (R431). -/
def State.stale (s : State) (ep : BitVec 16) : Bool := ep != s.regr.epoch && (s.regr.epoch - ep).toNat < 2 ^ 15

/-- The Registrar assigns NEXT to a key, within its window (R427). -/
def State.assign (s : State) (job gid seq : Nat) : State :=
  let a := (s.accn? job gid seq).getD (Accn.new job gid seq)
  let loc := s.accLocal a
  let next := s.nextOf loc
  if a.st != .unassigned || !s.serves a || 2 ^ 30 ≤ (next - s.oldest loc next).toNat then s
  else
    let s1 := s.updAccn job gid seq fun x => { x with num := next, st := .granted }
    let s2 := { s1 with regr := if loc then { s1.regr with localNext := next + 1 } else { s1.regr with next := next + 1 } }
    s2.decide' a

/-- A request for a key has arrived at the Registrar that serves it: it stands in the order of arrival until the key has a number (R427). -/
def State.ask (s : State) (job gid seq : Nat) : State :=
  let a := (s.accn? job gid seq).getD (Accn.new job gid seq)
  if s.serves a && a.st == .unassigned && !s.regr.asks.contains (job, gid, seq) then
    { s with regr := { s.regr with asks := s.regr.asks ++ [(job, gid, seq)] } }
  else s

/-- The requests that wait receive numbers in order, while the windows of their streams last (R427). -/
def State.answer (s : State) : State :=
  let t := s.regr.asks.foldl (fun u k => u.assign k.1 k.2.1 k.2.2) s
  { t with regr := { t.regr with asks := t.regr.asks.filter fun k => (t.accn? k.1 k.2.1 k.2.2).all fun a => a.st == .unassigned } }

/-- A request reaches the Registrar, which assigns the next number to a new key (R427). A request of a pod-wide group may be another
module's. -/
def execAccessionAssign (job gid seq : Nat) (s : State) : Host.Outcome State Fault Refusal :=
  .next (match s.group? (BitVec.ofNat 16 job) gid with
    | some g =>
      if !s.localGroup g || (s.accn? job gid seq).any fun a => !a.requested.isEmpty then (s.ask job gid seq).answer else s
    | none => s)

/-- The partitions of this module's members of an accession's group. -/
def State.herePartsOf (s : State) (a : Accn) : List Nat :=
  match s.group? (BitVec.ofNat 16 a.job) a.gid with
  | some g => (s.hereRanks g).map (·.2)
  | none => []

/-- Every member of this module has issued the key (R428). -/
def State.allIssued (s : State) (a : Accn) : Bool := (s.herePartsOf a).all a.requested.contains

/-- Accessions of a stream that have started here and not completed (R430). -/
def State.running (s : State) (loc : Bool) : Nat :=
  (s.regr.accs.filter fun a => s.accLocal a == loc && !a.started.isEmpty && !(s.herePartsOf a).all a.completed.contains).length

/-- The lines of a die's cache ways that hold bytes of a range. -/
def State.rangeLines (s : State) (x : Xlat) (d : Nat) (r : Nat × Nat) : List Nat :=
  let e : BitVec 256 := BitVec.ofNat 256 (2 ^ 255 + at' 128 56 r.1 + at' 64 56 r.2)
  ((s.die d).cache.filter fun l => s.lineIn x l.line e).map (·.line)

/-- They are written back (R261). -/
def State.cleanRange (s : State) (x : Xlat) (d : Nat) (r : Nat × Nat) : State := (s.rangeLines x d r).foldl (fun t l => t.cleanLine d l) s

/-- They are written back and invalidated (R424). -/
def State.dropRange (s : State) (x : Xlat) (d : Nat) (r : Nat × Nat) : State :=
  (s.rangeLines x d r).foldl (fun t l => (t.cleanLine d l).dropLine d l) s

/-- Every member of an accession that this module hears of has completed: those here, and at the Registrar that serves it those of the other
modules (R429). -/
def State.allDone (s : State) (a : Accn) : Bool :=
  (s.herePartsOf a).all a.completed.contains &&
    (!s.serves a || (match s.group? (BitVec.ofNat 16 a.job) a.gid with
      | some g => g.members.zipIdx.all fun e => e.1.1 == s.mid.toNat || a.elsewhere.contains e.2
      | none => true))

/-- A LIVE or CANCELLED accession that every member has completed is RETIRED (R429). -/
def State.retireAcc (s : State) (job gid seq : Nat) : State :=
  s.updAccn job gid seq fun a =>
    if (a.st == .live || a.st == .cancelled) && s.allDone a then { a with st := .retired } else a

/-- A member's collective completes with a code: its record, its tokens, VERSION, its waiter, and a graph node's task, whose end counts in
VERSION itself (R312, R424). -/
def State.finishColl (s : State) (who idx : Nat) (r : CollRec) (code : Nat) : State :=
  let job := s.collJob who
  let part := s.collPart who r
  let s1 := s.updColl who idx fun c => { c with st := .done code, order := s.stepNo }
  let s2 := r.dies.foldl (fun t d => t.updDie d fun y => y.endTok r.bsn 7 r.tout) s1
  let s3 := if who < 256 then s2.bumpVersions job (s2.touched job [r.dst]) else s2
  let s4 := (s3.updAccn job.toNat r.gid r.seq fun a => { a with completed := part :: a.completed }).retireAcc job.toNat r.gid r.seq
  if who < 256 then s4.wakeColl who
  else s4.complete (who - 256) (if code == 0 then 0 else if code == 1 then 2 else 3) 0

/-- Completes every uncompleted member of this module of a key with a code. -/
def State.finishAll (s : State) (a : Accn) (code : Nat) : State :=
  ((s.recsOf (BitVec.ofNat 16 a.job) a.gid a.seq).filter fun e => !e.2.2.2.isDone).foldl
    (fun t e => t.finishColl e.1 e.2.1 e.2.2.2 code) s

/-- A module starts its part of an accession; the members of a cancelled one complete CANCELLED once the backup has the decision (R426, R428,
R429, R431). -/
def State.startAccn (s : State) (a : Accn) : State :=
  let s1 := s.updAccn a.job a.gid a.seq fun x => { x with started := s.herePartsOf a }
  if a.st == .cancelled && a.mirrored then s1.finishAll a 1 else s1

/-- A module's part of an accession has started; it has none of one that arrived without a member here (R428). -/
def State.begun (s : State) (a : Accn) : Bool := !a.started.isEmpty || (a.arrived && (s.herePartsOf a).isEmpty)

/-- The accession of a stream that the module may start next: granted to it, every member has issued, and every lower grant of the
stream has started (R428, R430). -/
def State.startable (s : State) (a : Accn) : Bool :=
  let loc := s.accLocal a
  a.arrived && !s.begun a && s.allIssued a && s.running loc < 32 &&
    s.regr.accs.all fun b => !(s.accLocal b == loc && b.arrived && !s.begun b && precedes b.num a.num)

/-- Starts what can start, in ascending order. -/
def State.startAll : Nat → State → State
  | 0, s => s
  | n + 1, s =>
    match s.regr.accs.find? s.startable with
    | some a => State.startAll n (s.startAccn a)
    | none => s

def State.pump (s : State) : State := s.startAll s.regr.accs.length

/-- The dies of a collective that issued it enabled: each of them took its token (R423, R424, R407). -/
def State.collDies (s : State) (g : Gather) : List Nat := g.dies.filter fun d => (s.die d).reps.any fun r => r.bsn == g.bsn && r.enabled

/-- After its release is performed, a member's module requests an accession number (R423). A graph node has no release of its own. -/
def execAccessionRequest (ctx idx : Nat) (s : State) : Host.Outcome State Fault Refusal :=
  .next (match (s.collsOf ctx)[idx]? with
    | none => s
    | some r =>
      if r.st != .waitTok then s
      else
        let job := (s.collJob ctx).toNat
        let part := s.collPart ctx r
        let go (ds : List Nat) (t : State) : State :=
          (((t.updColl ctx idx fun c => { c with st := .requested, dies := ds }).updAccn job r.gid r.seq fun a =>
            { a with requested := part :: a.requested }).ask job r.gid r.seq).pump
        if 256 ≤ ctx then go r.dies s
        else match (s.ctx ctx).gathers.find? fun g => g.bsn == r.bsn && g.kind == .coll with
          | some g => if s.reported g && (s.ctx ctx).portDone g.bsn then go (s.collDies g) (s.endGather ctx g) else s
          | none => go r.dies s)

/-- The backup's NEXT follows the last number that the primary has mirrored to it (R431). -/
def State.mirror (s : State) (n : BitVec 32) : State :=
  if s.regr.backup == some s.mid.toNat && precedes s.regr.next (n + 1) then { s with regr := { s.regr with next := n + 1 } } else s

/-- A grant reaches this module, which starts its part in ascending order; receiving it twice has no effect, and one of an older epoch is
discarded (R428, R431). From this module's own instance it arrives after every lower one that concerns a member here, and after the backup
has it. A backup without a member takes the grant into its mirrored state. -/
def execGrantArrival (job gid seq : Nat) (m : GrantMsg) (s : State) : Host.Outcome State Fault Refusal :=
  .next (match s.group? (BitVec.ofNat 16 job) gid with
    | none => s
    | some g =>
      let x := (s.accn? job gid seq).getD (Accn.new job gid seq)
      let n := BitVec.ofNat 32 m.num
      let lower := s.regr.accs.all fun b =>
        !(s.accLocal b == s.accLocal x && b.st != .unassigned && precedes b.num n && !b.arrived && !(s.herePartsOf b).isEmpty)
      if x.arrived || !lower then s
      else if s.serves x then
        (if x.st != .unassigned && x.num == n && x.mirrored then
          (s.updAccn job gid seq fun y => { y with arrived := true }).pump
         else s)
      else if s.localGroup g || s.collstop || s.stale m.ep then s
      else
        ((s.mirror n).updAccn job gid seq fun y =>
          { y with num := n, st := if y.st == .unassigned then .granted else y.st, arrived := true, mirrored := true }).pump)

/-- The fields in which the members' descriptors must agree (R428). -/
def collKey (d : BitVec 512) : Nat × Nat × Nat × Nat × Bool × Nat := (cOp d, cCount d, bf d 333 330, cRop d, cExact d, cRoot d)

/-- A buffer of a collective cannot be reached: the Registrar's bank 66 records it, with KIND 0 and without an address. DESIGN CHOICE (log 22):
R424 has the error recorded, and the rules name neither the bank nor a KIND for it. -/
def State.collErr (s : State) (part : Nat) : State :=
  s.logErr 66 { uc := true, kind := 0, part := some part, w2 := Config.syndrome s.stepNo }

/-- Bytes of an element of a collective: one for two 4-bit elements. -/
def cElem (d : BitVec 512) : Nat := (cBits d + 7) / 8

/-- The dies whose cache ways the lane stores of an issuer may stand in. -/
def State.collCaches (s : State) (who : Nat) : List Nat := if who < 256 then s.issueSet who else []

/-- The rank of a member of this module. -/
def State.collRank (s : State) (g : Group) (e : Nat × Nat × Nat × CollRec) : Nat := g.members.idxOf (s.mid.toNat, e.2.2.1)

/-- How many bytes of its source a member has still to read; a broadcast reads ROOT's alone (R421). -/
def State.srcLeft (s : State) (g : Group) (e : Nat × Nat × Nat × CollRec) : Nat :=
  let r := e.2.2.2
  if cOp r.desc == 3 && s.collRank g e != cRoot r.desc then 0 else cBytes r.desc (cSrcLen r.desc g.members.length) - r.got.length

/-- The next n bytes of a member's source. The collective is an engine command (R249): it sees the lane stores of the dies that issued it, whose
dirty lines go home first (R261). -/
def State.srcRd (s : State) (e : Nat × Nat × Nat × CollRec) (n : Nat) : State × Except LandErr (List Byte) :=
  let r := e.2.2.2
  let job := s.collJob e.1
  let va := cSrc r.desc + r.got.length
  let t := (s.collCaches e.1).foldl (fun t d => t.cleanRange (s.jobXlat job) d (va, n)) s
  (t, t.bufRd job va n)

/-- What is left of the sources of this module's members is read: bytes by rank, and whether a read failed, which a bank records (R424). -/
def State.readSrcs (s : State) (g : Group) (l : List (Nat × Nat × Nat × CollRec)) : State × List (Nat × List Byte) × Bool :=
  l.foldl (fun acc e =>
    let r := e.2.2.2
    let rank := s.collRank g e
    if cOp r.desc == 3 && rank != cRoot r.desc then acc
    else
      let t := acc.1.srcRd e (s.srcLeft g e)
      match t.2 with
      | .ok b => (t.1, (rank, r.got ++ b) :: acc.2.1, acc.2.2)
      | .error .xlat => (t.1.collErr e.2.2.1, acc.2.1, true)
      | .error (.poison pa) =>
        (t.1.logErr (memBank pa) { uc := true, kind := 5, part := some e.2.2.1, w1 := w64 pa, w2 := Config.syndrome s.stepNo },
          acc.2.1, true)) (s, [], false)

/-- Stores that a Vyivo port has sent to a module and that are not acknowledged, with n more (R270). -/
def countPort (port dest n : Nat) : List (Nat × Nat × Nat) → List (Nat × Nat × Nat)
  | [] => [(port, dest, n)]
  | e :: r => if e.1 == port && e.2.1 == dest then (port, dest, e.2.2 + n) :: r else e :: countPort port dest n r

/-- The flits that carry one block of a collective (R416, R421). -/
def cFlits (d : BitVec 512) : Nat := (cBytes d (cCount d) + 239) / 240

/-- The blocks that this module's members send to other modules' members count as stores of the ports that carry them, 240 bytes to a flit
(R270, R416, R417; log 4). -/
def State.sendBlocks (s : State) (g : Group) (d : BitVec 512) : State :=
  let from' := (s.hereRanks g).filter fun e => cOp d != 3 || e.1 == cRoot d
  (g.members.filter (·.1 != s.mid.toNat)).foldl (fun t m =>
    let n := from'.length * cFlits d
    if n == 0 then t else { t with unacked := countPort (Config.vyivoPort s.stepNo m.1) m.1 n t.unacked }) s

/-- Every rank of another module is among these. -/
def State.othersIn (s : State) (g : Group) (l : List Nat) : Bool :=
  g.members.zipIdx.all fun e => e.1.1 == s.mid.toNat || l.contains e.2

/-- The sources of all ranks as numbers. -/
def allSrcs (n : Nat) (l : List (Nat × List Byte)) : List Nat :=
  (upto n).map fun q => ((l.find? (·.1 == q)).map fun e => leNat e.2).getD 0

/-- The sources that a collective's results depend on are known: every rank's, or ROOT's (R421). -/
def srcsKnown (d : BitVec 512) (n : Nat) (l : List (Nat × List Byte)) : Bool :=
  (upto n).all fun q => (cOp d == 3 && q != cRoot d) || l.any (·.1 == q)

/-- The byte that a job's virtual address of a store names; a byte of which a collective writes one half keeps the other (R420). -/
def State.keptByte (s : State) (job : BitVec 16) (va : Nat) : Nat :=
  match s.translateCold (s.jobXlat job) .store va with
  | .ok pa => s.homeRd pa 1
  | .error _ => 0

/-- The next n bytes of a member's destination are written (R421, R424), from the sources by rank. The die caches' lines go home first and are
then invalidated. -/
def State.moveData (s : State) (who : Nat) (r : CollRec) (g : Group) (srcs : List (Nat × List Byte)) (n : Nat) : State × Bool :=
  match cType r.desc with
  | none => (s, true)
  | some ty =>
    let job := s.collJob who
    let rank := g.members.idxOf (s.mid.toNat, s.collPart who r)
    let out := collOut r.desc ty (allSrcs g.members.length srcs) rank
    let ds := if who < 256 then s.issueSet who else [cPart r.desc]
    let s1 := ds.foldl (fun t d => t.dropRange (s.jobXlat job) d r.dst) s
    State.bufWr job (r.dst.1 + r.pos) (((packElems ty.bits out (s1.keptByte job (r.dst.1 + r.dst.2 - 1))).drop r.pos).take n) s1

/-- The sources of this module's members that have been read whole, by rank. -/
def State.srcsHere (s : State) (g : Group) (l : List (Nat × Nat × Nat × CollRec)) : List (Nat × List Byte) :=
  (l.filter fun e => s.srcLeft g e == 0).map fun e => (s.collRank g e, e.2.2.2.got)

/-- A LIVE accession moves its next element here: it reads one of a source, or, when every source is known, writes one of a destination (R253,
R260, R428). An element that meets an error is left to the end of the collective. -/
def State.collStep (s : State) (a : Accn) (g : Group) : State :=
  let l := (s.recsOf (BitVec.ofNat 16 a.job) a.gid a.seq).filter fun e => !e.2.2.2.isDone
  if a.mismatch || a.fault then s
  else match l.find? fun e => s.srcLeft g e != 0 with
    | some e =>
      let t := s.srcRd e (min (cElem e.2.2.2.desc) (s.srcLeft g e))
      (match t.2 with
       | .ok b => t.1.updColl e.1 e.2.1 fun c => { c with got := c.got ++ b }
       | .error _ => s)
    | none =>
      let srcs := s.srcsHere g l ++ a.srcs
      match l.find? fun e => e.2.2.2.pos < e.2.2.2.dst.2 && srcsKnown e.2.2.2.desc g.members.length srcs with
      | some e =>
        let n := cElem e.2.2.2.desc
        (match s.moveData e.1 e.2.2.2 g srcs n with
         | (t, true) => t.updColl e.1 e.2.1 fun c => { c with pos := c.pos + n }
         | (_, false) => s)
      | none => s

/-- Every member module has started its part: the accession is LIVE, and from then on its data move, an element at a time. `m`: the message with
the descriptors of the other modules' members by rank, all of them, and with the epoch, of which an older one is discarded (R428, R429, R431). -/
def execAccessionLive (job gid seq : Nat) (m : LiveMsg) (s : State) : Host.Outcome State Fault Refusal :=
  let remote := m.remote
  .next (match s.accn? job gid seq, s.group? (BitVec.ofNat 16 job) gid with
    | some a, some g =>
      let l := s.recsOf (BitVec.ofNat 16 job) gid seq
      let here := (s.herePartsOf a).isEmpty || !a.started.isEmpty
      if a.st == .live && a.mirrored then s.collStep a g
      else if a.st != .granted || !here || !a.mirrored || !s.othersIn g (remote.map (·.1)) || (s.collstop && !s.accLocal a) ||
          (!s.serves a && s.stale m.ep) then s
      else
        let keys := l.map (fun e => collKey e.2.2.2.desc) ++ remote.map fun e => collKey e.2
        let bad := keys.any (· != keys.headD (0, 0, 0, 0, false, 0))
        let s1 := match l.head? with
          | some e => if bad then s else s.sendBlocks g e.2.2.2.desc
          | none => s
        let s2 := s1.updAccn job gid seq fun x => { x with st := .live, mismatch := bad }
        if s.serves a then s2.decide' a else s2
    | _, _ => s)

/-- What is left of the destinations of this module's members is written, one after the other, until one cannot be (R424). -/
def State.moveAll (g : Group) (srcs : List (Nat × List Byte)) : List (Nat × Nat × Nat × CollRec) → State → State × Bool
  | [], s => (s, true)
  | e :: r, s =>
    match s.moveData e.1 e.2.2.2 g srcs e.2.2.2.dst.2 with
    | (t, true) => State.moveAll g srcs r t
    | (t, false) => (t.collErr e.2.2.1, false)

/-- What is left of a LIVE accession's data moves once the sources are known, and this module's members complete, all with FAULT where a buffer of
one of them fails (R424, R428). -/
def State.completeAll (s : State) (a : Accn) (g : Group) : State :=
  let l := (s.recsOf (BitVec.ofNat 16 a.job) a.gid a.seq).filter fun e => !e.2.2.2.isDone
  match l with
  | [] => s
  | e :: _ =>
    if a.mismatch then s.finishAll a 2
    else if a.fault then s.finishAll a 3
    else
      let r := s.readSrcs g l
      let srcs := r.2.1 ++ a.srcs
      if r.2.2 then r.1.finishAll a 3
      else if !srcsKnown e.2.2.2.desc g.members.length srcs then s
      else
        match State.moveAll g srcs l r.1 with
        | (t, true) => t.finishAll a 0
        | (t, false) => t.finishAll a 3

/-- What a module hears of an accession from the others. -/
def Accn.hears (a : Accn) (remote : List (Nat × List Byte)) (fault : Bool) (others : List Nat) : Accn :=
  { a with srcs := a.srcs ++ remote.filter fun e => !a.srcs.any fun k => k.1 == e.1
           fault := a.fault || fault
           elsewhere := a.elsewhere ++ others.filter fun q => !a.elsewhere.contains q }

/-- The collectives of this module's members for a key have performed their buffers (R424); a message that brings sources of other modules'
members by rank in `remote` only leaves them here, for the data to move with. `fault`: another module reports a failed buffer; `others`: the
ranks of other modules that have completed, as far as their Registrar has heard (R429). -/
def execCollectiveComplete (key : AccKey) (remote : List (Nat × List Byte)) (fault : Bool) (others : List Nat) (s : State) :
    Host.Outcome State Fault Refusal :=
  let (job, gid, seq) := (key.job, key.gid, key.seq)
  .next (match s.accn? job gid seq, s.group? (BitVec.ofNat 16 job) gid with
    | some a, some g =>
      let b := a.hears remote fault others
      let s1 := s.updAccn job gid seq fun _ => b
      let s2 := if a.st == .live && a.mirrored && (b.fault || b.srcs.length == a.srcs.length) then s1.completeAll b g else s1
      (s2.retireAcc job gid seq).pump
    | _, _ => s)

/-! ### Cancels (R426, R429) -/

/-- The answers to the CCANCELs of a key: 0x0 if the accession is or was cancelled, TOO_LATE otherwise. -/
def State.answerCancels (s : State) (a : Accn) : State :=
  let v : W64 := if a.wasCancelled then 0 else 1
  s.ctxs.foldl (fun t e =>
    let mine := e.2.cancels.filter fun q => q.gid == a.gid && q.seq == a.seq && (lJob e.2.lrec).toNat == a.job
    let t1 := mine.foldl (fun u q => u.deliverX e.1 q.xd q.bsn v) t
    t1.updCtx e.1 fun x =>
      { x with cancels := x.cancels.filter fun q => !(q.gid == a.gid && q.seq == a.seq && (lJob e.2.lrec).toNat == a.job) }) s

/-- What follows a decision that stands: the answers, and the members that have started and not completed end CANCELLED. -/
def State.tellCancel (s : State) (a : Accn) : State :=
  let s1 := s.answerCancels a
  let s2 := if a.st == .cancelled && !a.started.isEmpty then s1.finishAll a 1 else s1
  (s2.retireAcc a.job a.gid a.seq).pump

/-- A key's decision once the backup has it. -/
def State.tellKey (s : State) (job gid seq : Nat) : State :=
  match s.accn? job gid seq with
  | some a => if a.mirrored then s.tellCancel a else s
  | none => s

/-- The Registrar decides a cancel request atomically against the accession's state (R426, R429). An unassigned key is granted and
cancelled in the same step. A module on which the Registrar does not run learns the decision by message: `verdict` is the number of a
cancelled accession, or none for TOO_LATE, and `ep` the message's epoch, of which an older one is discarded (R431). -/
def execCancelDecision (key : AccKey) (verdict : Option Nat) (ep : BitVec 16) (s : State) : Host.Outcome State Fault Refusal :=
  let (job, gid, seq) := (key.job, key.gid, key.seq)
  .next (match s.group? (BitVec.ofNat 16 job) gid with
    | none => s
    | some _ =>
      let x := (s.accn? job gid seq).getD (Accn.new job gid seq)
      let cancel (t : State) : State := t.updAccn job gid seq fun y => { y with st := .cancelled, wasCancelled := true }
      if s.serves x then
        let s0 := (s.ask job gid seq).answer
        match s0.accn? job gid seq with
        | some a =>
          if a.st == .unassigned then s0
          else if a.st == .granted then ((cancel s0).decide' a).tellKey job gid seq
          else s0.tellKey job gid seq
        | none => s0
      else if s.accLocal x || s.collstop || s.stale ep then s
      else match verdict with
        | none => s.answerCancels x
        | some n =>
          if x.st == .unassigned || x.st == .granted then
            ((cancel (s.mirror (BitVec.ofNat 32 n))).updAccn job gid seq fun y =>
              { y with num := BitVec.ofNat 32 n, mirrored := true }).tellKey job gid seq
          else s.tellKey job gid seq)

/-! ### Backup and failover (R431) -/

/-- The backup acknowledges the oldest n mirrored decisions (R431). -/
def execBackupAck (n : Nat) (s : State) : Host.Outcome State Fault Refusal :=
  let ks := s.regr.unacked.take n
  let s1 : State := { s with regr := { s.regr with unacked := s.regr.unacked.drop n } }
  .next (ks.foldl (fun t k =>
    let later := t.regr.unacked.contains k
    let t1 := t.updAccn k.1 k.2.1 k.2.2 fun a => { a with mirrored := !later }
    match t1.accn? k.1 k.2.1 k.2.2 with
    | some a => if a.st == .cancelled && a.mirrored then t1.tellCancel a else t1
    | none => t1) s1)

/-- The primary sends its epoch to the backup: a message, and nothing else (R431). -/
def execRegistrarHeartbeat (s : State) : Host.Outcome State Fault Refusal := .next s

/-- The number behind the last mirrored one (R431). -/
def State.afterLast (s : State) : BitVec 32 :=
  (s.regr.accs.filter fun a => !s.accLocal a && a.st != .unassigned).foldl
    (fun m a => if precedes m (a.num + 1) then a.num + 1 else m) s.regr.next

/-- The pod-wide requests of this module that lack a grant: they are made again to a new primary (R431). -/
def State.ungranted (s : State) : List (Nat × Nat × Nat) :=
  (s.regr.accs.filter fun a => !s.accLocal a && a.st == .unassigned && !a.requested.isEmpty).map fun a => (a.job, a.gid, a.seq)

/-- 20 µs without a heartbeat: the backup takes over with a new epoch, and runs without a backup; where there is none the pod's
collectives stop (R431). -/
def execRegistrarFailover (s : State) : Host.Outcome State Fault Refusal :=
  .next (
    if s.nobackup then { s with collstop := true }
    else if s.regr.backup == some s.mid.toNat then
      let t : State :=
        { s with
          regr := { s.regr with primary := true, epoch := s.regr.epoch + 1, next := s.afterLast, backup := none, unacked := [] }
          nobackup := true }
      t.ungranted.foldl (fun u k => u.ask k.1 k.2.1 k.2.2) t
    else s)

/-- What an old primary keeps of an accession as it hears of a new epoch: decisions that the backup has not acknowledged have not been taken. `n`:
how many of them stand (R431; log 22). -/
def Accn.undecided (a : Accn) (n : Nat) : Accn :=
  if n == 0 || a.st == .retired then a
  else if a.st == .granted || n != 1 then { a with st := .unassigned, num := 0, wasCancelled := false, mirrored := false }
  else { a with st := .granted, wasCancelled := false, mismatch := false, mirrored := true }

/-- A new epoch is announced: its sender is the primary; an older one is discarded (R431). What an old primary has decided and its backup not
acknowledged is undone. Requests without a grant and cancels without a decision are sent again; they stand in the contexts until they are
answered. -/
def execEpochAnnounce (epoch : BitVec 16) (s : State) : Host.Outcome State Fault Refusal :=
  .next (if epoch == s.regr.epoch || s.stale epoch then s
    else
      { s with
        regr :=
          { s.regr with
            accs := s.regr.accs.map fun a => a.undecided (s.regr.unacked.count (a.job, a.gid, a.seq))
            unacked := []
            epoch := epoch
            primary := false
            backup := none }
        nobackup := true })

/-- Cimus designates the primary Registrar and its backup, each on a module (R418, R431). -/
def execBackupRegistrarDesignate (d : Designation) (s : State) : Host.Outcome State Fault Refusal :=
  .next { s with regr := { s.regr with primary := d.primary == s.mid.toNat, backup := some d.backup }, nobackup := false }

/-- Cimus creates a group: 1 to 4,096 distinct members, a number unique in its job (R418, R419). -/
def execGroupCreate (job gid : Nat) (members : List (Nat × Nat)) (s : State) : Host.Outcome State Fault Refusal :=
  let ok := gid < 65536 && !members.isEmpty && members.length ≤ 4096 && members.eraseDups == members &&
    (s.group? (BitVec.ofNat 16 job) gid).isNone
  .next (if ok then { s with groups := s.groups ++ [{ job := job, gid := gid, members := members, counts := [] }] } else s)

end Sys2Proof.Machine
end

