-- ==== Sys2Proof/Machine/Packets.lean ====
section
/-! DEFINITION. The packets of a queue (R275 to R293): the execution cursor of a berth, each packet's dispatch, aborts (R289), graphs
(R291, R292), and the bytes of a COPY (R288). A packet acts for the berth State.cur names; one that cannot start yet leaves the
state as it is. -/

namespace Sys2Proof.Machine

/-! ### The cursor (R277 to R281) -/

/-- The address of packet i of a frame. -/
def Berth.addrOf (b : Berth) (f : Frame) (i : Nat) : Nat :=
  match f.buf with
  | none => b.ring + 64 * (i % 2 ^ b.log2n)
  | some (base, _) => base + 64 * i

/-- The end of what a frame holds: WR, or the buffer's end. -/
def Berth.endOf (b : Berth) (f : Frame) : Nat :=
  match f.buf with
  | none => b.wr
  | some (_, n) => n

/-- The position behind the last packet that a frame can run on to: WR, or the buffer's end, or the end of a LOOP range. -/
def Berth.hi (b : Berth) (f : Frame) : Nat :=
  match f.loop with
  | some (a, n, _) => min (b.endOf f) (a + n)
  | none => b.endOf f

/-- Takes up the next pass of a LOOP whose range has ended, or leaves it; leaves a buffer that has ended. -/
def normFrames : Nat → List Frame → List Frame
  | 0, l => l
  | _, [] => []
  | n + 1, f :: r =>
    match f.loop with
    | some (a, len, left) =>
      if f.pos < a + len then f :: r
      else if 1 < left then { f with pos := a, loop := some (a, len, left - 1) } :: r
      else normFrames n ({ f with loop := none } :: r)
    | none =>
      match f.buf with
      | some (_, k) => if f.pos < k || r.isEmpty then f :: r else normFrames n r
      | none => f :: r

/-- Moves past n packets of the innermost frame. -/
def Frame.skip (f : Frame) (n : Nat) : Frame := { f with pos := f.pos + n, win := f.win.drop n }

/-- The innermost frame changed, and the frames settled. -/
def Berth.onTop (b : Berth) (g : Frame → Frame) : Berth :=
  match b.frames with
  | f :: r => { b with frames := normFrames 8 (g f :: r) }
  | [] => b

/-- The berth executes in its ring, not in a buffer. -/
def Berth.flatRing (b : Berth) : Bool := b.frames.length == 1

/-- The ring index of the packet that a berth would dispatch, or of the INDIRECT it lies behind (R289). -/
def Berth.point (b : Berth) : Nat :=
  match b.frames with
  | [f] => f.pos
  | _ => b.abortAt

/-- A packet may start: no barrier of the queue waits, and with ORD every earlier packet has completed (R277). -/
def State.canStart (s : State) (b : Berth) (h : PHdr) : Bool := b.barrier.isNone && (!h.ord || !s.outstanding b.queue)

/-- A packet is dispatched: the cursor moves past it and `n` more, the class returns to the queue's, and RDPTR is written at least
every 16 dispatches and when the berth is idle (R273, R294). -/
def State.take (s : State) (bn n : Nat) : State :=
  let s1 := s.updBerth bn fun b =>
    { b.onTop fun f => f.skip (1 + n) with
        curCls := b.cls, passed := 0, after := b.after + 1, abortAt := b.point, ownHdr := if b.flatRing then none else b.ownHdr }
  match s1.berth? bn with
  | some b => if 16 ≤ b.after || Config.writesRd s.stepNo || s1.berthIdle b then s1.writeRd bn else s1
  | none => s1

/-- A task of a packet. BARRIER and CANCEL packets are no tasks of a phase (R286). -/
def State.mkTask (_ : State) (bn : Nat) (b : Berth) (h : PHdr) (k : TaskK) : Task :=
  { kind := k, hdr := h, berth := bn, queue := b.queue, job := b.job, home := b.home, cls := b.cls, phase := b.phase, parent := none,
    st := .running, launchId := 0, ctxs := [], status := 0, fault := 0, ucode := 0, cancelled := false, prep := none, writes := [],
    coll := none }

/-- What a packet does when the berth can start it. -/
def State.packet (s : State) (h : PHdr) (f : Nat → Berth → State) : State :=
  match s.berth? s.cur.berth with
  | none => s
  | some b => if s.canStart b h then f s.cur.berth b else s

/-- Dispatches a packet whose task ends in the same step. -/
def State.instant (s : State) (bn : Nat) (t : Task) (status : Nat) (fault : BitVec 32) : State :=
  ((s.take bn 0).addTask t).complete s.nextTask status fault

/-! ### Abort (R289) -/

/-- What a retired packet's record says it was: its TYPE's level, its partition, an EVENT's payload (R296). -/
def retiredKind (w : BundleBits) : TaskK :=
  match pf w 7 0 with
  | 1 => .launch ⟨0, 0, BitVec.ofNat 7 (pf w 399 393), 0, false⟩
  | 2 => .gang ⟨0, 0, false, BitVec.ofNat 128 (pf w 383 256), 0, false⟩
  | 3 => .graph
  | 0x0B => .event (w64 (pf w 511 448))
  | 0x0C => .phase 0
  | _ => .nop

/-- Retires a packet of a header and a kind: its record where CREC asks for one, and −1 to its CSIG; `phase`: the phase that learns its
status. -/
def State.retireAs (s : State) (bn : Nat) (b : Berth) (h : PHdr) (k : TaskK) (status phase : Nat) : State :=
  let v : W64 := match k with
    | .event p => p
    | _ => 0
  let t : Task := { s.mkTask bn b h k with st := .ended, status := status, phase := phase, launchId := v }
  let id := s.nextTask
  let s1 := s.addTask t
  if t.hdr.crec then
    let r := s1.putRec (k.part b.home) (s1.recWord t.record) t.hdr.irq (some id)
    if r.2 then r.1.signal id else r.1
  else s1.signal id

/-- Retires one packet that the Landing has read. -/
def State.retire (s : State) (bn : Nat) (b : Berth) (w : BundleBits) (status phase : Nat) : State :=
  s.retireAs bn b (decHdr w) (retiredKind w) status phase

/-- What the Landing knows of the packet at an abort point: its header and kind, nothing of one that it could not read, or what its ring slot
holds (R289). The slot of a packet that has been dispatched may hold another by then. -/
inductive AbortPkt where
  | known (h : PHdr) (k : TaskK)
  | unread
  | slot
  deriving DecidableEq, Repr

/-- The ring packet at index i is read and retired; one that cannot be read writes no record and changes no signal (R289, R388). -/
def State.retireSlot (s : State) (bn : Nat) (b : Berth) (i status : Nat) : State :=
  match s.landRd b.job (b.ring + 64 * (i % 2 ^ b.log2n)) 64 with
  | .ok w => s.retire bn b (BitVec.ofNat 512 w) status 0
  | .error e => s.landErr e

/-- The packet at the abort point is retired with its status. -/
def State.retireFirst (s : State) (bn : Nat) (b : Berth) (i status : Nat) : AbortPkt → State
  | .known h k => s.retireAs bn b h k status 0
  | .unread => s
  | .slot => s.retireSlot bn b i status

/-- Retires n ring packets from index i on, but for those that a cancel of the job has ended (R289). -/
def State.retireRing (bn : Nat) (b : Berth) : Nat → Nat → State → State
  | _, 0, s => s
  | i, n + 1, s => State.retireRing bn b (i + 1) n (if i < b.cut then s else s.retireSlot bn b i 1)

/-- The run of a berth's prediction is discarded (R309). -/
def State.dropRun (s : State) (bn ctr : Nat) : State :=
  match s.runOf bn with
  | some (c, _) => s.discard c ctr
  | none => s

/-- Takes a queue off its berth, which a waiting queue may then take (R274). -/
def State.freeBerth (s : State) (bn : Nat) : State :=
  let s1 := s.dropRun bn 62
  { s1 with berths := s1.berths.del bn }.post .queueMapWaiting

/-- The queue aborts at ring index `first` with the status of its abort point and of the QUEUE record, and a FAULT code; `own`: what the Landing
knows of the packet there (R289). -/
def State.abort (s : State) (bn first status : Nat) (fault : BitVec 32) (own : AbortPkt) : State :=
  match s.berth? bn with
  | none => s
  | some b =>
    let s0 := if first < b.wr then s.retireFirst bn b first status own else s
    let s1 := State.retireRing bn b (first + 1) (b.wr - (first + 1)) s0
    let at0 := s1.qdescAt b.queue + 32
    let s2 := s1.setByte at0 ((s1.memByte at0 &&& 0xFC) ||| 1)
    let s3 := match s2.landWr b.job b.rdptr 8 b.wr with
      | .ok t => t
      | .error _ => s2
    let r : RecIn := { level := 6, id := w64 b.queue, fault := fault, status := status, part := b.home, berth := bn }
    ((s3.putRec b.home (s3.recWord r) false none).1.freeBerth bn).settle (s3.tasks.length + 1)

/-- The packet at the abort point of the packet that a berth would dispatch: itself in a ring, and in a buffer the INDIRECT that encloses
it (R289). -/
def Berth.own (b : Berth) (p : AbortPkt) : AbortPkt :=
  if b.flatRing then p
  else match b.ownHdr with
    | some h => .known h .nop
    | none => .slot

/-- A bad packet aborts the queue (R275, R289). -/
def State.badPacket (s : State) (bn : Nat) (h : PHdr) (k : TaskK) : State :=
  match s.berth? bn with
  | some b => s.abort bn b.point 5 0 (b.own (.known h k))
  | none => s

/-- A packet, or the word of a PRED whose header is given, that cannot be read aborts the queue (R289). -/
def State.unreadable (s : State) (bn : Nat) (h : Option PHdr) (status : Nat) (e : LandErr) : State :=
  match s.berth? bn with
  | some b => (s.landErr e).abort bn b.point status (BitVec.ofNat 32 e.code) (b.own (h.elim .unread fun x => .known x .nop))
  | none => s

/-! ### Plain tasks (R275, R283, R288) -/

def execNop (h : PHdr) (s : State) : Host.Outcome State Fault Refusal :=
  .next (s.packet h fun bn b => s.instant bn (s.mkTask bn b h .nop) 0 0)

def execEvent (h : PHdr) (payload : W64) (s : State) : Host.Outcome State Fault Refusal :=
  .next (s.packet h fun bn b => s.instant bn { s.mkTask bn b h (.event payload) with launchId := payload } 0 0)

/-- A SIGNAL whose release can be performed acts on its word and completes (R283). The spec gives no outcome for a word that cannot be
reached: the model's choice is the status FAULT with code 0x000A, and 0x0208 for an add to a poisoned word (log 21). -/
def State.trySignal (s : State) (id : Nat) : State :=
  match s.task? id with
  | none => s
  | some t =>
    match t.kind, t.st with
    | .signal a store v, .running =>
      if !t.clear then s
      else
        -- its own release is performed: that of its CSIG counts stores anew
        let s1 := s.updTask id fun x => { x with ports := none }
        match s1.sigOp t.job a store v with
        | .ok u => u.complete id 0 0
        | .error e => (s1.landErr e).complete id 3 (BitVec.ofNat 32 e.code)
    | _, _ => s

/-- SIGNAL: a release at its SCOPE, which waits for the stores counted at its dispatch, then the atomic (R270, R283). -/
def execSignal (h : PHdr) (saddr : BitVec 56) (store : Bool) (sval : W64) (s : State) : Host.Outcome State Fault Refusal :=
  .next (s.packet h fun bn b =>
    let s1 := s.take bn 0
    (s1.addTask { s.mkTask bn b h (.signal saddr.toNat store sval) with ports := some (s.portsFor h.scope) }).trySignal s1.nextTask)

/-- TIMESTAMP (R283). One whose address cannot be translated completes with FAULT and code 0x000A: the model's choice, for the spec gives no
outcome (log 21). -/
def execTimestamp (h : PHdr) (taddr : BitVec 56) (s : State) : Host.Outcome State Fault Refusal :=
  .next (s.packet h fun bn b =>
    let t := s.mkTask bn b h .timestamp
    match s.landWr b.job taddr.toNat 8 (Config.timeAt s.stepNo).toNat with
    | .ok u => u.instant bn t 0 0
    | .error e => s.instant bn t 3 (BitVec.ofNat 32 e.code))

/-- PHASE closes the open phase of its queue and opens the next (R286, R288). -/
def execPhase (h : PHdr) (s : State) : Host.Outcome State Fault Refusal :=
  .next (s.packet h fun bn b =>
    let s1 := (s.take bn 0).addTask
      { s.mkTask bn b h (.phase b.phase) with launchId := Config.workId b.phase, phase := 0 }
    let s2 : State :=
      { s1 with phases := match Tbl.get? s1.phases b.phase with
          | some p => s1.phases.put b.phase { p with closed := true }
          | none => s1.phases }
    ((s2.newPhase b.queue b.job).updBerth bn fun x => { x with phase := s2.nextTask }).settle (s2.tasks.length + 1))

/-- The berth of a queue with RD and its phase, as a map makes it (R272, R274, R298). -/
def State.newBerth (s : State) (q rd ph : Nat) (r : BitVec 512) : Berth :=
  { queue := q, ring := qRing r, rdptr := qRdptr r, job := qJob r, home := qHome r, log2n := qLog2n r, cls := qClass r, wr := rd,
    frames := [{ buf := none, pos := rd, loop := none, win := [] }], barrier := none, cut := 0, curCls := qClass r, passed := 0, after := 0,
    abortAt := rd, last := s.bells, hist := [], conf := 0, pred := none, predAge := 0, phase := ph }

/-- A packet that a cancel of its job keeps from starting completes CANCELLED, and so do those of an INDIRECT's buffer (R290; log 21). The
first number is how many levels of buffers may still open. -/
def State.cancelPkt (bn : Nat) (b : Berth) : Nat → Nat → State → State
  | n, a, s =>
    match s.landRd b.job a 64 with
    | .error e => s.landErr e
    | .ok w =>
      let p : BundleBits := BitVec.ofNat 512 w
      match n with
      | 0 => s.retire bn b p 2 b.phase
      | k + 1 =>
        if pf p 7 0 == 7 then (upto (pf p 455 440)).foldl (fun t i => State.cancelPkt bn b k (pf p 511 456 + 64 * i) t) s
        else s.retire bn b p 2 b.phase

/-- What is left of a berth's frames completes CANCELLED: the innermost first, each packet once. -/
def State.cancelFrames (bn : Nat) (b : Berth) : List Frame → State → State
  | [], s => s
  | f :: r, s =>
    State.cancelFrames bn b r ((upto (b.endOf f - f.pos)).foldl (fun t i => State.cancelPkt bn b (2 - r.length) (b.addrOf f (f.pos + i)) t) s)

/-- The packets of a mapped queue that have not been dispatched complete CANCELLED; a barrier that waits does so still (R290). -/
def State.cancelBerth (s : State) (bn : Nat) (b : Berth) : State :=
  let s1 := State.cancelFrames bn b b.frames (s.dropRun bn 62)
  (s1.updBerth bn fun x =>
    { x with frames := [{ buf := none, pos := b.wr, loop := none, win := [] }], cut := b.wr, curCls := x.cls, passed := 0 }).idleCheck b.queue

/-- So do those of a queue that waits for a berth: the highest doorbell value ends what was submitted (R274, R290). -/
def State.cancelWaiting (s : State) (job : BitVec 16) (w : WaitQ) : State :=
  let r := s.qdesc w.queue
  if !qOk r.1 || qJob r.1 != job then s.landErr? r.2
  else match s.landRd job (qRdptr r.1) 8 with
    | .error e => s.landErr e
    | .ok rd =>
      let ph := (s.openPhase w.queue).getD 0
      let b := { s.newBerth w.queue rd ph r.1 with wr := w.value }
      let s1 := State.cancelFrames (bf (Config.jobRec s.stepNo) 107 96) b b.frames s
      let s2 := match s1.landWr job (qRdptr r.1) 8 w.value with
        | .ok t => t
        | .error _ => s1
      { s2 with waitQ := s2.waitQ.filter (·.queue != w.queue) }

/-- A cancel of a whole job: no packet of its queues that has not been dispatched starts (R290). -/
def State.cancelJob (s : State) (job : BitVec 16) : State :=
  let s1 := (s.berths.filter fun e => e.2.job == job).foldl (fun t e => t.cancelBerth e.1 e.2) s
  let s2 := s1.waitQ.foldl (fun t w => t.cancelWaiting job w) s1
  ({ s2 with phases := s2.phases.map fun (e : Nat × Phase) => if e.2.job == job && !e.2.closed then (e.1, { e.2 with used := false }) else e }).updJob job
    fun j => { j with status := if j.status == 0 then 2 else j.status }

/-- CANCEL (R290): one atomic step; it completes when its targets have. -/
def execCancel (h : PHdr) (ctag : BitVec 32) (lvl : CLevel) (kill : Bool) (s : State) : Host.Outcome State Fault Refusal :=
  .next (s.packet h fun bn b =>
    let hit := s.tasks.filter fun t => t.2.matches ctag lvl
    let own := (hit.filter fun t => t.2.job == b.job).map (·.1)
    let t := { s.mkTask bn b h (.cancel own) with phase := 0 }
    if own.isEmpty && !hit.isEmpty && lvl != .job then s.instant bn t 9 0
    else
      let s1 := (s.take bn 0).addTask t
      let s2 := s1.cancelAll own kill
      let s3 := if lvl == .job then s2.cancelJob b.job else s2
      s3.settle (s3.tasks.length + 1))

/-! ### Control packets (R278 to R280, R282) -/

/-- INDIRECT opens a buffer; a third level is a bad packet (R278). -/
def execIndirect (h : PHdr) (iaddr : BitVec 56) (icount : BitVec 16) (s : State) : Host.Outcome State Fault Refusal :=
  .next (s.packet h fun bn b =>
    if 3 ≤ b.frames.length then s.badPacket bn h .nop
    else if icount == 0 then s.take bn 0
    else
      let f : Frame := { buf := some (iaddr.toNat, icount.toNat), pos := 0, loop := none, win := [] }
      -- the frame goes on top before the outer frames settle
      let s1 := s.updBerth bn fun x =>
        match x.frames with
        | g :: r =>
          { x with
              frames := f :: g.skip 1 :: r, curCls := x.cls, passed := 0, after := x.after + 1, abortAt := x.point
              ownHdr := if x.flatRing then some h else x.ownHdr }
        | [] => x
      (s1.berth? bn).elim s1 fun x => if 16 ≤ x.after || Config.writesRd s.stepNo then s1.writeRd bn else s1)

/-- What a range of n packets after the next one is (R279, R280). -/
inductive RangeSt where
  | good | waits | bad
  deriving DecidableEq, Repr

/-- The reads of the n packets after the next one, as far as they are valid. -/
def State.rangeRead (s : State) (b : Berth) (n : Nat) : List (Except LandErr Nat) :=
  match b.frames with
  | [] => []
  | f :: _ => (upto (min n (b.hi f - (f.pos + 1)))).map fun j => s.landRd b.job (b.addrOf f (f.pos + 1 + j)) 64

/-- The range lies in one ring or buffer and in an enclosing LOOP range, and holds no LOOP; in a ring it must be valid (R279, R280). A range
that with its own packet is longer than the ring can never be valid: the model's choice is a bad packet, not a wait (log 21). -/
def State.rangeSt (s : State) (b : Berth) (n : Nat) : RangeSt :=
  match b.frames with
  | [] => .bad
  | f :: _ =>
    let i := f.pos + 1
    let inLoop := match f.loop with
      | some (a, k, _) => i + n ≤ a + k
      | none => true
    let held := (s.rangeRead b n).any fun r => match r with
      | .ok w => w % 256 == 8
      | .error _ => false
    if !inLoop then .bad
    else match f.buf with
      | some (_, k) => if k < i + n || held then .bad else .good
      | none =>
        if b.wr < i + n then (if 2 ^ b.log2n < n + 1 then .bad else .waits) else if held then .bad else .good

/-- The poison that those reads met is recorded (R388). -/
def State.noteRange (s : State) (b : Berth) (n : Nat) : State :=
  (s.rangeRead b n).foldl (fun t r => match r with
    | .ok _ => t
    | .error e => t.landErr e) s

/-- LOOP (R279). -/
def execLoopPacket (h : PHdr) (passes : BitVec 16) (lcount : BitVec 8) (s : State) : Host.Outcome State Fault Refusal :=
  .next (s.packet h fun bn b =>
    if b.frames.head?.any fun f => f.loop.isSome then s.badPacket bn h .nop
    else
      let t := s.noteRange b lcount.toNat
      match s.rangeSt b lcount.toNat with
      | .bad => t.badPacket bn h .nop
      | .waits => s
      | .good =>
        if passes == 0 then t.take bn lcount.toNat
        else (t.take bn 0).updBerth bn fun x =>
          { x with frames := match b.frames with
              | f :: r => { f.skip 1 with loop := some (f.pos + 1, lcount.toNat, passes.toNat) } :: r
              | [] => [] })

/-- PRED (R280). -/
def execPred (h : PHdr) (p : PredP) (s : State) : Host.Outcome State Fault Refusal :=
  .next (s.packet h fun bn b =>
    let t := s.noteRange b p.count.toNat
    match s.rangeSt b p.count.toNat with
    | .bad => t.badPacket bn h .nop
    | .waits => s
    | .good =>
      match s.landRd b.job p.addr.toNat 8 with
      | .error e => t.unreadable bn (some h) 3 e
      | .ok w => if PCond.holds p.cnd (w64 w) p.val then t.take bn 0 else t.take bn p.count.toNat)

/-- FETCHFENCE (R282): every earlier packet has completed; what was fetched beyond it is fetched again. -/
def execFetchfence (h : PHdr) (s : State) : Host.Outcome State Fault Refusal :=
  .next (s.packet h fun bn b =>
    if s.outstanding b.queue then s
    else (s.take bn 0).updBerth bn fun x => { x with frames := x.frames.map fun f => { f with win := [] } })

/-! ### BARRIER (R284) -/

/-- The used signals of a barrier with their conditions. -/
def BarrierP.used (p : BarrierP) : List BarSig :=
  (if p.v.getLsbD 0 then [p.s0] else []) ++ (if p.v.getLsbD 1 then [p.s1] else []) ++ (if p.v.getLsbD 2 then [p.s2] else [])

/-- The values of the used signals, or the reads that fail. -/
def State.barVals (s : State) (job : BitVec 16) : List BarSig → Except (List LandErr) (List (BarSig × W64))
  | [] => .ok []
  | g :: r =>
    match s.landRd job g.addr.toNat 8, s.barVals job r with
    | .ok v, .ok l => .ok ((g, w64 v) :: l)
    | .error e, .ok _ => .error [e]
    | .ok _, .error l => .error l
    | .error e, .error l => .error (e :: l)

/-- The berth on which a barrier's queue still waits for it. -/
def State.barrierBerth (s : State) (id : Nat) (t : Task) : Option Berth := (s.berth? t.berth).filter fun b => b.barrier == some id

/-- A waiting barrier evaluates: a negative signal aborts the queue, and conditions that all hold complete it. One whose signals cannot
be read waits; the poison that it reads is recorded (R388). A barrier that an overrun left without its berth runs on, and ends ABORTED where its
queue would abort (R289). -/
def State.evalBarrier (s : State) (id : Nat) : State :=
  match s.task? id with
  | none => s
  | some t =>
    match t.kind with
    | .barrier p =>
      if t.over then s
      else match s.barVals t.job (BarrierP.used p) with
      | .error es => es.foldl State.landErr s
      | .ok vs =>
        let free (u : State) : State := if (s.barrierBerth id t).isSome then u.updBerth t.berth fun x => { x with barrier := none } else u
        if vs.any fun e => e.2.msb then
          match s.barrierBerth id t with
          | some b => (free { s with tasks := s.tasks.del id }).abort t.berth b.abortAt 1 0 (.known (b.ownHdr.getD t.hdr) .nop)
          | none => s.complete id 1 0
        else if vs.all fun e => PCond.holds e.1.cnd e.2 e.1.val then (free s).complete id 0 0
        else s
    | _ => s

/-- BARRIER: dispatched, it evaluates at once (R284). -/
def execBarrier (h : PHdr) (p : BarrierP) (s : State) : Host.Outcome State Fault Refusal :=
  .next (s.packet h fun bn b =>
    if (BarrierP.used p).isEmpty then s.instant bn { s.mkTask bn b h .nop with phase := 0 } 0 0
    else
      let s1 := s.take bn 0
      ((s1.addTask { s.mkTask bn b h (.barrier p) with phase := 0 }).updBerth bn fun x => { x with barrier := some s1.nextTask }).evalBarrier
        s1.nextTask)

/-- The waiting barriers of a berth evaluate again (R284). -/
def execBarrierPollTimer (b : Nat) (s : State) : Host.Outcome State Fault Refusal :=
  .next (((s.tasks.filter fun e => e.2.berth == b).map (·.1)).foldl State.evalBarrier s)

/-! ### COPY (R288) -/

/-- The range lies in one job-wide region of the partition with the access. -/
def State.copyRegion (s : State) (p a n acc : Nat) : Bool :=
  (s.part p).wide.any fun e => rgHolds e.2 a ((a : Int) + n - 1) && rgAcc e.2 &&& acc == acc

/-- The status of a COPY whose checks fail, or OK for one of no bytes; none lets it run. -/
def State.copyStatus (s : State) (job : BitVec 16) (p : CopyP) : Option Nat :=
  let n := p.len.toNat
  let k := p.part.toNat
  if !s.partOf k job then some 9
  else if n == 0 then some 0
  else if !s.copyRegion k p.src.toNat n 1 || !s.copyRegion k p.dst.toNat n 2 then some 0x0B
  else if rangesMeet (p.src.toNat, n) (p.dst.toNat, n) then some 0x0A
  else none

/-- A COPY's task starts on the copy engine of its partition's die. -/
def State.startCopy (s : State) (t : Task) (p : CopyP) : State :=
  let id := s.nextTask
  match s.copyStatus t.job p with
  | some st => (s.addTask t).complete id st 0
  | none =>
    let w := [(p.dst.toNat, p.len.toNat)]
    let c : Cmd :=
      { bsn := 0, addr := 0, kind := .packet p.src.toNat p.dst.toNat p.len.toNat id, tout := 0, tile := 0, desc := 0, xo := 0, xb := 0,
        dieIdx := 0, dsel := .none, started := true, limit := 0, buf := none, slot := 0, field := 0, scw := [], present := 0, detached := false }
    ((s.addTask { t with writes := w }).openRanges t.job w).updDie p.part.toNat fun y => { y with cmds := y.cmds ++ [c] }

/-- COPY; one that finds 512 commands in flight on its die waits (R262, R288). A DST with a bit of 5:0 set makes a bad packet (R276) only where
no check of R288 ends the copy first, for R347 has such a copy end with OVERLAP (log 21). -/
def execCopy (h : PHdr) (p : CopyP) (s : State) : Host.Outcome State Fault Refusal :=
  .next (s.packet h fun bn b =>
    if p.dst.toNat % 64 != 0 && (s.copyStatus b.job p).all (· == 0) then s.badPacket bn h (.copy p)
    else if (s.copyStatus b.job p).isNone && 512 ≤ (s.die p.part.toNat).inFlight then s
    else (s.take bn 0).startCopy (s.mkTask bn b h (.copy p)) p)

/-- A byte that a COPY reads: a dirty byte of the die's own cache ways, else the byte at home (R261). -/
def State.unitByte (s : State) (d a : Nat) : Nat :=
  match (s.die d).cline a with
  | some l => if l.dirty.getLsbD (a % 128) then bf l.data (8 * (a % 128) + 7) (8 * (a % 128)) else (s.homeByte a).toNat
  | none => (s.homeByte a).toNat

def State.unitRd (s : State) (d a : Nat) : Nat → Nat
  | 0 => 0
  | n + 1 => s.unitByte d a + 256 * s.unitRd d (a + 1) n

/-- A dirty line of the die's own cache ways that cannot be read stands for an address (R381). -/
def State.wayPoison (s : State) (d a : Nat) : Bool := (s.die d).cbad a && ((s.die d).cline a).any fun l => l.dirty != 0

/-- Moves one unit of 64 bytes: the state, and whether the unit carried poison; none where a translation fails (R288). -/
def State.copyUnit (s : State) (d : Nat) (job : BitVec 16) (src dst : Nat) : Option (State × Bool) :=
  match s.translateCold (s.jobXlat job) .load src, s.translateCold (s.jobXlat job) .store dst with
  | .ok a, .ok b =>
    let own := s.wayPoison d a
    let bad := s.poisonIn a 64 || own
    let s1 := (s.memLine b (s.unitRd d a 64)).updDie d fun y => y.cacheUpdate b 64 (s.unitRd d a 64)
    let s2 := if bad then
        (s1.addPoison b).logErr (s.dieBank d 7) { uc := true, kind := 5, w1 := w64 a, w2 := Config.syndrome s.stepNo }
      else s1
    some (if own then s2.dropLine d (a / 128) else s2, bad)
  | _, _ => none

/-- The COPY's command on a die. -/
def Cmd.packetOf (c : Cmd) (task : Nat) : Bool := match c.kind with | .packet _ _ _ t => t == task | _ => false

/-- A COPY leaves its die's engine and completes (R288). -/
def State.endCopy (s : State) (d task st : Nat) (code : BitVec 32) : State :=
  (s.updDie d fun y => { y with cmds := y.cmds.filter fun c => !c.packetOf task }).complete task st code

/-- A COPY packet moves its next unit of 64 bytes, one access each (R260, R288); with the last it completes, with FAULT and 0x0209 if a unit
carried poison. A translation failure ends it with FAULT: R288 gives no code, and R350 has 0x010A for a copy engine's fault and 0x000A for
one of the Landing's; a COPY is the Landing's task, so the model takes 0x000A, with die bits 0 (log 22). -/
def execCopyPacketComplete (task : Nat) (s : State) : Host.Outcome State Fault Refusal :=
  .next (match s.task? task with
    | some t =>
      (match t.kind with
       | .copy p =>
         let d := p.part.toNat
         (match (s.die d).cmds.find? (·.packetOf task) with
          | some c =>
            if p.len.toNat / 64 ≤ c.pos then s.endCopy d task (if c.hurt then 3 else 0) (if c.hurt then 0x0209 else 0)
            else
              match s.copyUnit d t.job (p.src.toNat + 64 * c.pos) (p.dst.toNat + 64 * c.pos) with
              | none => s.endCopy d task 3 0x000A
              | some (u, bad) =>
                let hurt := c.hurt || bad
                if p.len.toNat / 64 ≤ c.pos + 1 then u.endCopy d task (if hurt then 3 else 0) (if hurt then 0x0209 else 0)
                else u.updDie d fun y =>
                  { y with cmds := y.cmds.map fun k => if k.packetOf task then { k with pos := c.pos + 1, hurt := hurt } else k }
          | none => s)
       | _ => s)
    | none => s)

/-! ### LAUNCH and GANG (R287, R293, R298, R315) -/

/-- A mask that the mode does not allow (R276). -/
def State.qmaskBad (s : State) (q : BitVec 4) : Bool := s.unprot && (q.getLsbD 2 || q.getLsbD 3)

/-- The packet is bad in this mode (R275, R276). -/
def State.kindBad (s : State) (k : TaskK) : Bool :=
  match k with
  | .launch p => s.qmaskBad p.qmask
  | .gang p => s.qmaskBad p.qmask || (!s.unprot && p.pmask.toNat / 2 ^ 64 != 0)
  | _ => false

/-- DENIED: a partition that is not the job's, or both halves of one die (R287, R293). -/
def State.kindDenied (s : State) (job : BitVec 16) (k : TaskK) : Bool :=
  !k.parts.all (fun p => s.partOf p job) || ((k.parts.map s.cdn).eraseDups != k.parts.map s.cdn)

/-- The reads and checks of a kernel's launch for a job: DENIED first (R287, R293). -/
def State.prepare (s : State) (job : BitVec 16) (k : TaskK) : Except (Nat × Option LandErr) Prep :=
  if s.kindDenied job k then .error (9, none)
  else match k with
    | .launch p => s.readKernel job p.khdr p.args p.iinv
    | .gang p => s.readKernel job p.khdr p.args p.iinv
    | _ => .error (6, none)

/-- Enters a launch or gang task with its kernel: a free partition starts at once, a gang begins to reserve, and the rest waits
(R277, R293). -/
def State.enterKernel (s : State) (t : Task) (p : Prep) : State :=
  let id := s.nextTask
  let w := p.writes
  let s1 := (s.addTask { t with st := .waiting, prep := some p, writes := w }).openRanges t.job w
  match t.kind.parts with
  | [k] => if s1.partFree k none then (s1.startTask id).settle (s1.tasks.length + 1) else s1.clearSpec k
  | ps => { s1 with resvns := s1.resvns.put id { todo := ps, held := [], cls := t.cls } }.post (.partitionObtained id)

/-- Dispatches a LAUNCH or GANG: its reads, the history, the match with a run of the berth, and the start (R287, R298, R301, R315). -/
def State.dispatchKernel (s : State) (bn : Nat) (b : Berth) (h : PHdr) (k : TaskK) : State :=
  let id := s.nextTask
  let t := s.mkTask bn b h k
  let pr := s.prepare b.job k
  let run := s.runOf bn
  let differs := match run, pr with
    | some (c, r), .ok p => !s.likeRun c r k p
    | some _, .error _ => true
    | none, _ => false
  let s1 := (s.take bn 0).updBerth bn fun x =>
    let y := x.note (histEntry k pr.toOption) s.stepNo
    -- a launch that differs from the run ends the confidence, whatever its history entry says (R317)
    if differs then { y with conf := 0 } else y
  match pr with
  | .error e => (((s1.dropRun bn 59).addTask t).failTask id e).settle (s1.tasks.length + 2)
  | .ok p =>
    match run with
    | some (c, r) =>
      if s.matchRun c r b.job k p then
        let t1 : Task := { t with st := .waiting, writes := p.writes }
        (((s1.addTask t1).claim c r id t1 p).openRanges b.job p.writes).settle (s1.tasks.length + 2)
      else (s1.dropRun bn 59).enterKernel t p
    | none => s1.enterKernel t p

/-- A claim waits while its run is RUNNING and has written no line yet: R349 has one line committed with every claim, whatever its timing, and
R294 sets no time to a dispatch. DEDUCED (log 22). -/
def State.claimWaits (s : State) (bn : Nat) (b : Berth) (k : TaskK) : Bool :=
  match s.runOf bn with
  | some (c, r) =>
    r.st == .running && (s.die (lPart (s.ctx c).lrec)).vitrine.isEmpty &&
      (match s.prepare b.job k with
       | .ok p => s.matchRun c r b.job k p
       | .error _ => false)
  | none => false

/-- A LAUNCH starts when its partition is free or holds the berth's own run, and no waiting task of a higher class has it next (R277, R293,
R315); not once the purser pair has halted SP64 (R389). -/
def State.kernelReady (s : State) (bn : Nat) (b : Berth) (k : TaskK) : Bool :=
  match k.parts with
  | [p] =>
    s.kindDenied b.job k || (!s.phalt && !s.claimWaits bn b k && !s.outranked 0 p b.curCls && (s.partFree p none ||
      (match s.runOf bn with
       | some (c, _) => lPart (s.ctx c).lrec == p
       | none => false)))
  | _ => !s.phalt

/-- A launch or gang packet (R277, R287, R293). No launch starts once the purser pair has halted SP64 (R389). -/
def State.kernelPacket (s : State) (h : PHdr) (k : TaskK) : State :=
  s.packet h fun bn b =>
    if s.kindBad k then s.badPacket bn h k
    else if s.claimWaits bn b k then s
    else if !s.kernelReady bn b k then s.clearSpec (k.parts.headD 0)
    else s.dispatchKernel bn b h k

def execLaunch (h : PHdr) (p : LaunchP) (s : State) : Host.Outcome State Fault Refusal := .next (s.kernelPacket h (.launch p))
def execGang (h : PHdr) (p : GangP) (s : State) : Host.Outcome State Fault Refusal := .next (s.kernelPacket h (.gang p))

/-! ### GRAPH (R291, R292) -/

/-- Why a graph is not admitted: it is a bad packet, or something cannot be read. -/
inductive GraphErr where
  | bad
  | read (e : LandErr)
  deriving DecidableEq, Repr

/-- The work of a node: WORK's packet, its header ignored but for TYPE, or the collective descriptor (R291). -/
def State.nodeWork (s : State) (job : BitVec 16) (kind work : Nat) : Except GraphErr TaskK :=
  if kind == 0 then .ok .nop
  else match s.landRd job work 64 with
    | .error e => .error (.read e)
    | .ok w =>
      if kind == 3 then .ok (.collNode (BitVec.ofNat 512 w))
      else match kind, decodePacket (BitVec.ofNat 512 (w / 2 ^ 128 * 2 ^ 128 + w % 256)) with
        | 1, some (.launch _ p) => if s.kindBad (.launch p) then .error .bad else .ok (.launch p)
        | 1, some (.gang _ p) => if s.kindBad (.gang p) then .error .bad else .ok (.gang p)
        | 2, some (.copy _ p) => if p.dst.toNat % 64 != 0 then .error .bad else .ok (.copy p)
        | 4, some (.event _ v) => .ok (.event v)
        | _, _ => .error .bad

/-- A node entry of a graph of n nodes: successors and work (R291). -/
def State.nodeEntry (s : State) (job : BitVec 16) (n i e : Nat) : Except GraphErr (List Nat × TaskK) :=
  let r : BitVec 512 := BitVec.ofNat 512 e
  let k := bf r 311 308
  let succ := (upto (min k 6)).map fun j => bf r (12 * j + 323) (12 * j + 312)
  if bf r 455 453 > 4 || (bf r 455 453 == 0 && bf r 511 456 != 0) || bf r 452 384 != 0 || bf r 307 0 != 0 || bf r 461 456 != 0 || 6 < k || succ.any fun x => x ≤ i || n ≤ x then
    .error .bad
  else match s.nodeWork job (bf r 455 453) (bf r 511 456) with
    | .ok w => .ok (succ, w)
    | .error x => .error x

/-- The entries of a graph from node i on. -/
def State.nodeEntries (s : State) (job : BitVec 16) (n : Nat) : Nat → List Nat → Except GraphErr (List (List Nat × TaskK))
  | _, [] => .ok []
  | i, e :: r =>
    match s.nodeEntry job n i e with
    | .error x => .error x
    | .ok v =>
      match s.nodeEntries job n (i + 1) r with
      | .error x => .error x
      | .ok l => .ok (v :: l)

/-- The regions a node declares: those it reads and those it writes (R292). A kernel that cannot be read declares none. -/
def State.nodeRegions (s : State) (job : BitVec 16) (k : TaskK) : List (Nat × Nat) × List (Nat × Nat) :=
  match k with
  | .launch _ | .gang _ =>
    (match s.prepare job k with
     | .ok p => (p.regions.map (·.2), p.writes)
     | .error _ => ([], []))
  | .copy p => ([(p.src.toNat, p.len.toNat), (p.dst.toNat, p.len.toNat)], [(p.dst.toNat, p.len.toNat)])
  | .collNode d =>
    let n := ((s.group? job (cGid d)).map (·.members.length)).getD 1
    ([(cSrc d, cBytes d (cSrcLen d n)), (cDst d, cBytes d (cDstLen d n))], [(cDst d, cBytes d (cDstLen d n))])
  | _ => ([], [])

/-- The poison that reading a node's kernel meets (R388). -/
def State.nodeErr (s : State) (job : BitVec 16) (k : TaskK) : Option LandErr :=
  match k with
  | .launch _ | .gang _ =>
    (match s.prepare job k with
     | .ok _ => none
     | .error e => e.2)
  | _ => none

/-- Two nodes' regions overlap with a writer among them (R292). -/
def regionsClash (a b : List (Nat × Nat) × List (Nat × Nat)) : Bool :=
  (a.2.any fun x => b.1.any (rangesMeet x)) || b.2.any fun x => a.1.any (rangesMeet x)

/-- The graph of some entries: a node follows its declared predecessors and the lower nodes its regions clash with. An edge where a
path already joins two nodes changes nothing (R292). -/
def State.mkGraph (s : State) (job : BitVec 16) (l : List (List Nat × TaskK)) : Graph :=
  let rg := l.map fun e => s.nodeRegions job e.2
  let node (j : Nat) (e : List Nat × TaskK) : Node :=
    let ps := (upto j).filter fun i =>
      (l.getD i ([], .nop)).1.contains j || regionsClash (rg.getD i ([], [])) (rg.getD j ([], []))
    { work := e.2, preds := ps, st := .blocked }
  Graph.advance { nodes := l.mapIdx node, firstFail := 0 } s.stepNo

/-- GRAPH admits its nodes (R291). One whose entries or work cannot be read completes with FAULT. -/
def execGraph (h : PHdr) (gaddr : BitVec 56) (nnode : BitVec 12) (s : State) : Host.Outcome State Fault Refusal :=
  .next (s.packet h fun bn b =>
    let n := nnode.toNat + 1
    let id := s.nextTask
    let t := { s.mkTask bn b h .graph with launchId := Config.workId id }
    match s.landRds b.job 64 n gaddr.toNat with
    | .error e => (s.landErr e).instant bn t 3 (BitVec.ofNat 32 e.code)
    | .ok es =>
      match s.nodeEntries b.job n 0 es with
      | .error .bad => s.badPacket bn h .graph
      | .error (.read e) => (s.landErr e).instant bn t 3 (BitVec.ofNat 32 e.code)
      | .ok l =>
        let s1 := ((l.foldl (fun u e => u.landErr? (s.nodeErr b.job e.2)) s).take bn 0).addTask t
        { s1 with graphs := s1.graphs.put id (s.mkGraph b.job l) })

/-- The header that a node's work has: none of its fields counts (R291). -/
def nodeHdr : PHdr := { csig := 0, tag := 0, irq := false, scope := .mod, crec := false, ord := false }

/-- Ready nodes with the time they became ready, their graph and number. -/
def State.readyNodes (s : State) : List (Nat × Nat × Nat × Node) :=
  s.graphs.flatMap fun g => (g.2.nodes.zipIdx.filterMap fun e =>
    match e.1.st with
    | .ready t => some (t, g.1, e.2, e.1)
    | _ => none)

/-- The oldest ready node, the lower node number first (R292). -/
def oldestNode (l : List (Nat × Nat × Nat × Node)) : Option (Nat × Nat × Nat × Node) :=
  l.foldl (fun a x =>
    match a with
    | some y => if x.1 < y.1 || (x.1 == y.1 && x.2.2.1 < y.2.2.1) then some x else some y
    | none => some x) none

/-- The status of a collective node whose checks fail, by the STATUS of R423. -/
def nodeCollStatus (k : Nat) : Nat := if k == 1 then 5 else if k == 2 then 0x0B else if k == 5 then 0x0A else 9

/-- A collective node issues its collective for the member on PART (R291, R420). -/
def State.startCollNode (s : State) (t : Task) (d : BitVec 512) : State :=
  let id := s.nextTask
  let st := if s.partOf (cPart d) t.job then s.collStatus t.job (cPart d) true d else 4
  if st != 0 then (s.addTask t).complete id (nodeCollStatus st) 0
  else
    let (s1, n) := s.takeSeq t.job (cGid d) (cPart d)
    let dst := s.collDst t.job d
    let c : CollRec := { gid := cGid d, seq := n, desc := d, tout := 0, bsn := 0, dies := [], dst := dst, st := .waitTok, order := 0 }
    ((s1.addTask { t with coll := some c, writes := [dst] }).openRanges t.job [dst]).post (.accessionRequest (256 + id) 0)

/-- A node's work starts on its engine (R292). -/
def State.startNode (s : State) (g i : Nat) (n : Node) (gt : Task) : State :=
  let id := s.nextTask
  let t : Task := { gt with kind := n.work, hdr := nodeHdr, parent := some (g, i), phase := 0, st := .running, launchId := 0 }
  match n.work with
  | .launch _ | .gang _ =>
    (match s.prepare t.job n.work with
     | .error e => ((s.addTask t).failTask id e).settle (s.tasks.length + 2)
     | .ok p => s.enterKernel t p)
  | .copy p => s.startCopy t p
  | .collNode d => s.startCollNode t d
  | .event v => (s.addTask { t with launchId := v }).complete id 0 0
  | _ => (s.addTask t).complete id 0 0

/-- The graph engine dispatches the oldest ready node; a copy waits for room on its die (R262, R292). -/
def execGraphNodeDispatch (s : State) : Host.Outcome State Fault Refusal :=
  .next (match oldestNode s.readyNodes with
    | none => s
    | some (_, g, i, n) =>
      match s.task? g with
      | none => s
      | some gt =>
        let full := match n.work with
          | .copy p => (s.copyStatus gt.job p).isNone && 512 ≤ (s.die p.part.toNat).inFlight
          | _ => false
        if full then s
        else (s.updGraph g fun x => { x with nodes := x.nodes.modify i fun m => { m with st := .running } }).startNode g i n gt)

end Sys2Proof.Machine
end

