-- ==== Sys2Proof/Machine/Landing.lean ====
section
/-! DEFINITION. Doorbells and the mapping of berths (R272 to R274), fetch-ahead (R281), the dispatch decision (R294), ENQ (R295, R332,
R333), and the steps of the Curator and the host port (R302 to R304, R313; R270, R439). -/

namespace Sys2Proof.Machine

/-! ### Doorbells and berths (R273, R274) -/

/-- The lowest free berth number, above the listed ones that rise. -/
def freeNo (n : Nat) : Tbl Berth → Nat
  | [] => n
  | (k, _) :: r => if n < k then n else freeNo (n + 1) r

/-- A doorbell value of a mapped queue: ignored, a new WR, or an overrun (R273, R289). -/
def State.ring (s : State) (bn v : Nat) : State :=
  match s.berth? bn with
  | none => s
  | some b =>
    let s1 := { s with bells := s.bells + 1 }.updBerth bn fun x => { x with last := s.bells }
    if v ≤ b.wr then s1
    else if v ≤ b.rd + 2 ^ b.log2n then s1.updBerth bn fun x => { x with wr := v }
    else s1.abort bn b.rd 8 0 .slot

/-- The phase that a mapped queue's tasks belong to: its open one, or a new one (R286). -/
def State.phaseFor (s : State) (q : Nat) (job : BitVec 16) : State × Nat :=
  match s.openPhase q with
  | some p => (s, p)
  | none => (s.newPhase q job, s.nextTask)

/-- Maps a queue on a free berth, with RD from RDPTR and an empty history, and applies the waiting doorbell value; a queue that cannot
be mapped is left alone (R272, R274, R298); poison that the Landing reads is recorded (R388). -/
def State.mapOn (s : State) (bn q v : Nat) : State :=
  let r := (s.qdesc q).1
  if !qOk r || qState r != 0 then s.landErr? (s.qdesc q).2
  else match s.landRd (qJob r) (qRdptr r) 8 with
    | .error e => s.landErr e
    | .ok rd =>
      let (s1, ph) := s.phaseFor q (qJob r)
      { s1 with berths := s1.berths.put bn (s.newBerth q rd ph r) }.ring bn v

/-- The queue that is mapped next: class 0 first, then the order of the first doorbell (R274). -/
def firstWait (l : List WaitQ) : Option WaitQ :=
  l.foldl (fun (a : Option WaitQ) w =>
    match a with
    | some x => if w.cls < x.cls then some w else some x
    | none => some w) none

/-- The idle berth with the oldest last doorbell (R274). -/
def State.evictable (s : State) : Option Nat :=
  ((s.berths.filter fun e => s.berthIdle e.2).foldl (fun (a : Option (Nat × Berth)) e =>
    match a with
    | some x => if e.2.last < x.2.last then some e else some x
    | none => some e) none).map (·.1)

/-- A waiting queue takes a free berth, or the place of an idle one, whose RD is written (R274). -/
def State.mapNext (s : State) : State :=
  match firstWait s.waitQ with
  | none => s
  | some w =>
    let take (t : State) (bn : Nat) : State :=
      { t with waitQ := t.waitQ.filter (·.queue != w.queue) }.mapOn bn w.queue w.value
    let n := freeNo 0 s.berths
    if n < 4096 then take s n
    else match s.evictable with
      | some bn => take ((s.writeRd bn).freeBerth bn) bn
      | none => s

/-- Maps waiting queues while berths last. -/
def State.mapAll : Nat → State → State
  | 0, s => s
  | n + 1, s => State.mapAll n s.mapNext

/-- A doorbell of an unmapped queue: the highest value waits with the queue (R272, R274). -/
def State.waitBell (s : State) (q v : Nat) : State :=
  let r := (s.qdesc q).1
  if !qOk r || qState r != 0 then s.landErr? (s.qdesc q).2
  else
    let l := if s.waitQ.any (·.queue == q) then
        s.waitQ.map fun w => if w.queue == q then { w with value := max w.value v } else w
      else s.waitQ ++ [⟨q, v, qClass r⟩]
    let s1 := { s with waitQ := l }
    State.mapAll l.length s1

/-- The doorbell of a queue (R273, R274). -/
def State.doorbell (s : State) (q v : Nat) : State :=
  if queueCount ≤ q then s
  else match s.berthOf q with
    | some bn => s.ring bn v
    | none => s.waitBell q v

/-- A doorbell store, of the host or of device code; before BOOTED, or of the secure world without IDE, it has no effect (R439). -/
def execDoorbell (q : HostTo) (v : W64) (s : State) : Host.Outcome State Fault Refusal :=
  .next (if s.boot == .booted && hostActs q.via then s.doorbell q.n v.toNat else s)

/-- A free or evictable berth takes the first waiting queue (R274). -/
def execQueueMapWaiting (s : State) : Host.Outcome State Fault Refusal := .next s.mapNext

/-- IDLETO has passed since a berth became idle: RD is written, and the berth is FREE (R274). -/
def execBerthIdleTimeout (b : Nat) (s : State) : Host.Outcome State Fault Refusal :=
  .next (match s.berth? b with
    | some x => if s.berthIdle x then (s.writeRd b).freeBerth b else s
    | none => s)

/-! ### Fetch-ahead (R281) -/

/-- A frame whose place has reached the end of its LOOP range: at the range's start in the next pass, or behind the last one (R279). -/
def Frame.turn (f : Frame) : Frame :=
  match f.loop with
  | some (a, len, left) =>
    if f.pos < a + len then f
    else if 1 < left then { f with pos := a, loop := some (a, len, left - 1) }
    else { f with loop := none }
  | none => f

/-- Where a frame stands once a packet that has been fetched ahead is executed: behind it, or in the first pass of the LOOP that it is. None
behind an INDIRECT, whose buffer comes first and is valid from its dispatch on, and behind a LOOP of no passes (R278, R279, R281). -/
def Frame.behind (f : Frame) (w : BundleBits) : Option Frame :=
  let g := { f with pos := f.pos + 1 }
  if pf w 7 0 == 7 then (if pf w 455 440 == 0 then some g.turn else none)
  else if pf w 7 0 == 8 then
    (if pf w 511 496 == 0 || f.loop.isSome then none else some { g with loop := some (f.pos + 1, pf w 495 488, pf w 511 496) })
  else some g.turn

/-- Where a frame stands behind the packets that have been fetched ahead, in execution order; a PRED may skip some of them (R281). -/
def Frame.ahead (f : Frame) : List BundleBits → Option Frame
  | [] => some f
  | w :: r =>
    match f.behind w with
    | some g => g.ahead r
    | none => none

/-- Fetches the next packet in execution order, of the first frame that has one left; a read that fails is made again at the dispatch. A
buffer is read from the dispatch of its INDIRECT on: the bytes that a packet executes with are of an instant after that (R281). -/
def State.fetchIn (s : State) (b : Berth) : List Frame → List Frame
  | [] => []
  | f :: r =>
    match f.turn.ahead f.win with
    | some g =>
      if g.pos < b.endOf f then
        match s.landRd b.job (b.addrOf f g.pos) 64 with
        | .ok w => { f with win := f.win ++ [BitVec.ofNat 512 w] } :: r
        | .error _ => f :: r
      else f :: s.fetchIn b r
    | none => f :: r

/-- At most 16 packets are fetched ahead of a berth's next dispatch (R281). -/
def execPacketFetch (b : Nat) (s : State) : Host.Outcome State Fault Refusal :=
  .next (match s.berth? b with
    | some x =>
      if (x.frames.map fun f => f.win.length).foldl (· + ·) 0 < 16 then s.updBerth b fun y => { y with frames := s.fetchIn x x.frames }
      else s
    | none => s)

/-! ### The dispatch decision (R277, R294) -/

/-- The next packet of a berth: fetched ahead, or read now. -/
def State.nextPacket (s : State) (b : Berth) : Option (Except LandErr BundleBits) :=
  match b.frames with
  | [] => none
  | f :: _ =>
    if b.hi f ≤ f.pos then none
    else match f.win with
      | w :: _ => some (.ok w)
      | [] =>
        match s.landRd b.job (b.addrOf f f.pos) 64 with
        | .ok w => some (.ok (BitVec.ofNat 512 w))
        | .error e => some (.error e)

/-- The header of a packet. -/
def hdrOf : Instr → PHdr
  | .nop h => h
  | .launch h _ => h
  | .gang h _ => h
  | .graph h _ _ => h
  | .barrier h _ => h
  | .signal h _ _ _ => h
  | .copy h _ => h
  | .indirect h _ _ => h
  | .loopPacket h _ _ => h
  | .pred h _ => h
  | .fetchfence h => h
  | .event h _ => h
  | .phase h => h
  | .cancel h _ _ _ => h
  | .timestamp h _ => h
  | _ => nodeHdr

/-- The kernel of a LAUNCH or GANG packet. -/
def kernelOf : Instr → Option TaskK
  | .launch _ p => some (.launch p)
  | .gang _ p => some (.gang p)
  | _ => none

/-- Whether a packet can start, beside ORD and barriers (R277, R279, R280, R282, R288). -/
def State.startable' (s : State) (bn : Nat) (b : Berth) (i : Instr) : Bool :=
  match i with
  | .launch _ p => s.kindBad (.launch p) || s.kernelReady bn b (.launch p)
  | .gang _ p => s.kindBad (.gang p) || s.kernelReady bn b (.gang p)
  | .fetchfence _ => !s.outstanding b.queue
  | .loopPacket _ _ n => s.rangeSt b n.toNat != .waits
  | .pred _ p => s.rangeSt b p.count.toNat != .waits
  | .copy _ p => p.dst.toNat % 64 != 0 || !((s.copyStatus b.job p).isNone && 512 ≤ (s.die p.part.toNat).inFlight)
  | _ => true

/-- A ready berth (R294): its next packet can start, or aborts the queue. -/
def State.ready (s : State) (bn : Nat) (b : Berth) : Bool :=
  match s.nextPacket b with
  | none => false
  | some (.error _) => b.barrier.isNone
  | some (.ok w) =>
    b.barrier.isNone &&
      (match decodePacket w with
       | none => true
       | some i => s.canStart b (hdrOf i) && s.startable' bn b i)

/-- Every berth with whether it is ready. -/
def State.readyBerths (s : State) : List (Nat × Berth) := s.berths.filter fun e => s.ready e.1 e.2

/-- The partition that a berth's next launch, or gang of one partition, would take from another berth's run (R293, R319). -/
def State.wants (s : State) (b : Berth) : Option Nat :=
  match s.nextPacket b with
  | some (.ok w) =>
    (match (decodePacket w).bind fun i => (kernelOf i).map fun k => (hdrOf i, k) with
     | some (h, k) =>
       (match k.parts with
        | [p] => if s.canStart b h && !s.kindBad k && s.partOf p b.job then some p else none
        | _ => none)
     | none => none)
  | _ => none

/-- Runs that other work made ready for their partitions are discarded (R303, R319). -/
def State.clearWanted (s : State) : State :=
  s.berths.foldl (fun t e =>
    match s.wants e.2 with
    | some p =>
      match (s.ctx p).spec with
      | some r => if r.berth == e.1 then t else t.clearSpec p
      | none => t
    | none => t) s

/-- The berth that the round-robin of a class gives: the first from the pointer on, else the lowest. -/
def pick (rr : Nat) (l : List (Nat × Berth)) : Option Nat :=
  match l.find? fun e => rr ≤ e.1 with
  | some e => some e.1
  | none => l.head?.map (·.1)

/-- The choice among ready berths: strict between classes, round-robin within one (R294). -/
def State.choose (s : State) (l : List (Nat × Berth)) : Option (Nat × Nat) :=
  [0, 1, 2, 3].findSome? fun k => (pick (s.rr.getD k 0) (l.filter fun e => e.2.curCls == k)).map fun b => (k, b)

/-- A packet acts for the berth of State.cur. -/
def dispatchInstr (i : Instr) (s : State) : Host.Outcome State Fault Refusal :=
  match i with
  | .nop h => execNop h s
  | .launch h p => execLaunch h p s
  | .gang h p => execGang h p s
  | .graph h a n => execGraph h a n s
  | .barrier h p => execBarrier h p s
  | .signal h a st v => execSignal h a st v s
  | .copy h p => execCopy h p s
  | .indirect h a n => execIndirect h a n s
  | .loopPacket h p n => execLoopPacket h p n s
  | .pred h p => execPred h p s
  | .fetchfence h => execFetchfence h s
  | .event h v => execEvent h v s
  | .phase h => execPhase h s
  | .cancel h t l k => execCancel h t l k s
  | .timestamp h a => execTimestamp h a s
  | _ => .next s

/-- Dispatches a berth's next packet, or aborts its queue (R275, R289). -/
def State.dispatchNext (s : State) (bn : Nat) (b : Berth) : Host.Outcome State Fault Refusal :=
  match s.nextPacket b with
  | none => .next s
  | some (.error e) => .next (s.unreadable bn none 5 e)
  | some (.ok w) =>
    match decodePacket w with
    | none => .next (s.badPacket bn (decHdr w) (retiredKind w))
    | some i => dispatchInstr i { s with cur := { s.cur with berth := bn, queue := b.queue } }

/-- One dispatch decision: runs in the way are discarded, and one ready berth dispatches; the other ready ones have been passed over once
more, and a berth that is not ready starts anew (R294, R315). -/
def execDispatchDecision (s : State) : Host.Outcome State Fault Refusal :=
  let s0 := s.clearWanted
  let l := s0.readyBerths
  match s0.choose l with
  | none => .next s0
  | some (k, bn) =>
    let s2 : State :=
      { s0 with
        rr := s0.rr.set k (bn + 1)
        berths := s0.berths.map fun e =>
          if e.1 == bn then e else (e.1, { e.2 with passed := if l.any (·.1 == e.1) then e.2.passed + 1 else 0 }) }
    match s2.berth? bn with
    | some b => s2.dispatchNext bn b
    | none => .next s2

/-- A ready berth that 4,096 decisions have passed over moves up one class (R294). -/
def execBerthClassPromote (b : Nat) (s : State) : Host.Outcome State Fault Refusal :=
  .next (match s.berth? b with
    | some x => if 4096 ≤ x.passed && x.curCls != 0 && s.ready b x then s.updBerth b fun y => { y with curCls := y.curCls - 1, passed := 0 } else s
    | none => s)

/-! ### ENQ (R332, R333) -/

/-- What ENQ finds: ring, LOG2N, RD and WR of a queue, or its status and a read that has failed. -/
def State.enqState (s : State) (job : BitVec 16) (x : W64) : Except (Nat × Option LandErr) (Nat × Nat × Nat × Nat) :=
  if queueCount ≤ x.toNat then .error (2, none)
  else
    let q := x.toNat
    match (s.berthOf q).bind s.berth? with
    | some b => if b.job != job then .error (2, none) else .ok (b.ring, b.log2n, b.rd, b.wr)
    | none =>
      let r := (s.qdesc q).1
      if !qOk r || qJob r != job then .error (2, (s.qdesc q).2)
      else if qState r == 1 then .error (3, none)
      else match s.landRd job (qRdptr r) 8 with
        | .error e => .error (2, some e)
        | .ok rd => .ok (qRing r, qLog2n r, rd, ((s.waitQ.find? (·.queue == q)).map (·.value)).getD rd)

/-- The Landing's part of an ENQ: the packet is written, and WR + 1 acts as a doorbell; the answer is the value of XD. -/
def State.enqueue (s : State) (job : BitVec 16) (x : W64) (pkt : Nat) : State × W64 :=
  match s.enqState job x with
  | .error k => (s.landErr? k.2, w64 k.1)
  | .ok (base, n, rd, wr) =>
    if wr == rd + 2 ^ n then (s, 1)
    else
      let s1 := match s.translateCold (s.jobXlat job) .store (base + 64 * (wr % 2 ^ n)) with
        | .ok pa => s.memLine pa pkt
        | .error _ => s
      (s1.doorbell x.toNat (wr + 1), w64 (wr * 256))

/-- The packet that an ENQ reads at step 4, before its bundle's S slot stores. -/
def State.enqPacket (s : State) (slma : BitVec 12) : Nat :=
  { s.cx with slm := s.cur.slm0.getD s.cx.slm }.slmRd (slma.toNat * 64) 64

/-- ENQ: a release of the context's own accesses, then the Landing's step (R332). -/
def execEnq (xd xa : Reg) (slma : BitVec 12) (s : State) : Host.Outcome State Fault Refusal :=
  .next (match s.cur.side with
    | .die => s
    | .seq =>
      if s.slmSize < slma.toNat * 64 + 64 then s.takeTrap { cause := 0x0006 }
      else if s.cx.isSpec || s.cx.commitWaits || s.portBusy then s.stall
      else
        let r := s.enqueue (lJob s.cx.lrec) (s.x xa) (s.enqPacket slma)
        (r.1.setX xd r.2).unrepeatable s.cur.ctx)

/-! ### Starting a speculative run (R302 to R304, R310, R311) -/

/-- A don't-care word lies in a base, size or bollard argument that the region list names (R302). -/
def dontcareBad (p : Prep) : Bool :=
  let hit (w : Nat) : Bool := p.dontcare.getLsbD w || p.dontcare.getLsbD (w + 1)
  p.regs.any fun e => hit (bf e 61 56) || hit (bf e 55 50) || (e.getLsbD 49 && hit (bf e 48 43))

/-- The lowest-numbered job-wide entry of a partition that holds a range wholly (R311). -/
def State.coverOf (s : State) (p : Nat) (r : Nat × Nat) : Option (Nat × BitVec 256) :=
  (s.part p).wide.find? fun e => rgHolds e.2 r.1 ((r.1 : Int) + r.2 - 1)

/-- The covering entries of a read set with their versions; none if a region is not covered or its entry is open (R302, R303, R311). -/
def State.covers (s : State) (job : BitVec 16) (p : Nat) : List (Nat × Nat × Nat) → Option (List (Nat × BitVec 32))
  | [] => some []
  | (dir, base, size) :: r =>
    if dir % 2 == 0 then s.covers job p r
    else match s.coverOf p (base, size) with
      | none => none
      | some e => if s.isOpen job e.2 then none else (s.covers job p r).map ((e.1, rgVersion e.2) :: ·)

/-- Other work is dispatchable on a partition: a ready berth's launch or gang, a waiting task, or a ready kernel node (R303). -/
def State.partWanted (s : State) (p : Nat) : Bool :=
  (s.readyBerths.any fun e =>
    match s.nextPacket e.2 with
    | some (.ok w) => ((decodePacket w).bind kernelOf).any fun k => k.parts.contains p
    | _ => false) ||
    (s.tasks.any fun t => t.2.st == .waiting && t.2.kind.parts.contains p) ||
    s.readyNodes.any fun n => n.2.2.2.work.parts.contains p

/-- What the Curator reads of a berth's predicted launch, where the prediction may start a run (R302 to R304). -/
def State.specRead (s : State) (b : Berth) : Option (Hist × Except (Nat × Option LandErr) Prep) :=
  b.pred.bind fun h =>
    let p := h.part.toNat
    let vit := (s.job b.job).vitcap != 0
    if h.gang || b.conf < 2 || !vit || !s.partOf p b.job || !s.partFree p none || s.partWanted p then none
    else some (h, s.readKernel b.job h.khdr h.args false)

/-- The run that a berth's prediction may start: launch, kernel and versions (R302 to R304). -/
def State.specPlan (s : State) (b : Berth) : Option (LaunchP × Prep × List (Nat × BitVec 32)) :=
  match s.specRead b with
  | some (h, .ok k) =>
    if k.nospec || dontcareBad k || argHash k.args k.dontcare != h.hash then none
    else (s.covers b.job h.part.toNat k.regions).map fun v => (⟨h.khdr, h.args, h.part, h.qmask, false⟩, k, v)
  | _ => none

/-- The poison that the Curator's read of a predicted launch meets, at each attempt to start its run (R388; log 22). -/
def State.specErr (s : State) (b : Berth) : Option LandErr :=
  match s.specRead b with
  | some (_, .error e) => e.2
  | _ => none

/-- Berth a goes before berth b on the partition that both predict: the lower class, then the older prediction (R303). -/
def specBefore (a b : Nat × Berth) : Bool :=
  a.2.cls < b.2.cls || (a.2.cls == b.2.cls && (a.2.predAge < b.2.predAge || (a.2.predAge == b.2.predAge && a.1 < b.1)))

/-- No run of a berth exists. -/
def State.noRun (s : State) (bn : Nat) : Bool := !(s.ctxs.any fun c => c.2.spec.any fun r => r.berth == bn)

/-- Starts the run of a berth's prediction, where R303 lets it start (R304): once every packet that can start has been dispatched, for the
Curator decides after every event of the Landing's step. -/
def execSpecRunStart (b : Nat) (s : State) : Host.Outcome State Fault Refusal :=
  .next (match s.berth? b with
    | none => s
    | some x =>
      match s.specPlan x with
      | none => if s.noRun b && s.readyBerths.isEmpty then s.landErr? (s.specErr x) else s
      | some (l, k, v) =>
        let rival (e : Nat × Berth) : Bool :=
          e.1 != b && specBefore e (b, x) && s.noRun e.1 && (s.specPlan e.2).any fun r => r.1.part == l.part
        if !s.noRun b || !s.readyBerths.isEmpty || s.berths.any rival then s
        else
          let pl : Plan :=
            { prep := k, parts := [l.part.toNat], multi := false, qmask := l.qmask, berth := b, cls := x.cls, job := x.job }
          let sp : Spec :=
            { berth := b, pred := l, args := k.args, dontcare := k.dontcare, versions := v, st := .running }
          (s.enterAll pl 0 [] none (some sp)).addCtr l.part.toNat 56 1)

/-! ### The host port (R271, R313, R439) and the Vyivo ports (R270) -/

/-- A job's pages that a range of virtual addresses maps hold one of some physical bytes. -/
def State.rangeHits (s : State) (job : BitVec 16) (r : Nat × Nat) (pa n : Nat) : Bool :=
  (upto ((r.1 + r.2 + 65535) / 65536 - r.1 / 65536)).any fun i =>
    let page := (r.1 / 65536 + i) * 65536
    match s.leaf [] (s.jobXlat job) page with
    | .ok e =>
      let lo := max page r.1
      let hi := min (page + 65536) (r.1 + r.2)
      overlap (e.pa lo) (hi - lo) pa n
    | .error _ => false

/-- The watched job-wide entries of a job that a write touches (R313). -/
def State.watched (s : State) (job : BitVec 16) (pa n : Nat) : List Nat :=
  ((s.jobWide job).filter fun e => rgWatch e.2 && rgSize e.2 != 0 && s.rangeHits job (rgRange e.2) pa n).map (·.1)

/-- Writes bytes at home; whole lines replace poison. -/
def State.hostWr (s : State) (pa : Nat) : List Byte → State
  | [] => s
  | b :: r => (s.memWr pa 1 b.toNat).hostWr (pa + 1) r

/-- The 64-byte lines that lie wholly in n bytes from pa on. -/
def wholeLines (pa n : Nat) : List Nat :=
  (upto (n / 64 + 1)).filterMap fun i =>
    let l := (pa + 63) / 64 + i
    if l * 64 + 64 ≤ pa + n then some (l * 64) else none

/-- A CXL.mem write to HBM is performed at home, and the watch filter examines it (R271, R313, R439). -/
def execCxlMemWrite (h : HostTo) (bytes : List Byte) (s : State) : Host.Outcome State Fault Refusal :=
  let n := bytes.length
  let pa := h.n
  .next (
    if s.hostDown || !hostActs h.via || n == 0 || bellBase < pa + n then s
    else
      let s1 := (wholeLines pa n).foldl (fun t a => t.clearPoison a) (s.hostWr pa bytes)
      s1.jobs.foldl (fun t j => t.bumpVersions (BitVec.ofNat 16 j.1) (s.watched (BitVec.ofNat 16 j.1) pa n)) s1)

/-- A CXL.mem read is performed at home and changes nothing (R271, R439). -/
def execCxlMemRead (_ : HostTo) (_ : Nat) (s : State) : Host.Outcome State Fault Refusal := .next s

/-- Another module acknowledges n stores of a Vyivo port (R270). The counts that operations in progress wait for fall with it. -/
def ackPorts (port dest n : Nat) (l : List (Nat × Nat × Nat)) : List (Nat × Nat × Nat) :=
  l.map fun e => if e.1 == port && e.2.1 == dest then (e.1, e.2.1, e.2.2 - n) else e

/-- A wait with the counts that stand. -/
def Wait.ack (port dest n : Nat) : Wait → Wait
  | .coll xd h l => .coll xd h (ackPorts port dest n l)
  | w => w

/-- A task whose counted stores have been acknowledged goes on: a SIGNAL acts, and a release of a completion signal is performed. -/
def State.portsEnded (s : State) (id : Nat) : State :=
  match s.task? id with
  | some t => if t.st == .signals then (if t.clear then (s.finishTask id).settle (s.tasks.length + 1) else s) else s.trySignal id
  | none => s

/-- STORE_ACK (R270). -/
def execStoreAck (port dest n : Nat) (s : State) : Host.Outcome State Fault Refusal :=
  let s1 : State :=
    { s with
      unacked := ackPorts port dest n s.unacked
      tasks := s.tasks.map fun e => (e.1, { e.2 with ports := e.2.ports.map (ackPorts port dest n) })
      ctxs := s.ctxs.map fun c =>
        (c.1, { c.2 with wait := c.2.wait.ack port dest n
                         gathers := c.2.gathers.map fun g => { g with ports := ackPorts port dest n g.ports } }) }
  .next ((s.ctxs.map (·.1)).foldl State.wakeColl ((s.tasks.map (·.1)).foldl State.portsEnded s1))

end Sys2Proof.Machine
end

