-- ==== Sys2Proof/Machine/Traps.lean ====
section
/-! DEFINITION. The freeze after a die fault (R351 to R358), ERET and RRFILL (R338, R339, R355, R360), KILL, PREEMPT and RESTORE
(R367 to R373), the end of a discarded speculative run (R309, R319), XINV (R365, R366) and the acknowledgement of trap messages. -/

namespace Sys2Proof.Machine

/-! ### Stopping the dies (R352, R368) -/

/-- An issued slot of a die has not delivered: commands that detach, unstarted ones, and a CFLUSH that waits for parked lanes do not
count (R359, R368, R369). -/
def Die.quiet (y : Die) : Bool :=
  y.flights.isEmpty && y.mmuls.isEmpty && y.mq.isEmpty && y.gq.isEmpty && y.permW.isNone &&
    y.cmds.all fun c => match c.kind with
      | .flush _ => !y.accDone c.limit
      | _ => true

/-- A remote access that a faulted die will repeat on its resume does not count either (R353). -/
def State.quiet (s : State) (d : Nat) : Bool :=
  let y := s.die d
  y.quiet && y.rq.all fun a => y.fault.isSome && s.remoteBad a

/-- Every die of a context's issue set has stopped and is quiet. -/
def State.allStopped (s : State) (c : Nat) : Bool := (s.issueSet c).all fun d => (s.die d).stopped && s.quiet d

/-- A die of the issue set holds a die fault. -/
def State.faulted (s : State) (c : Nat) : List Nat := (s.issueSet c).filter fun d => (s.die d).fault.isSome

/-- The fault flag reaches the sequencer, which issues nothing more (R352). -/
def execFaultFlagArrival (ctx : Nat) (s : State) : Host.Outcome State Fault Refusal :=
  let x := s.ctx ctx
  .next (if (s.faulted ctx).isEmpty || x.frozen || x.swapped || x.saved then s
    else s.updCtx ctx fun x => { x with stopping := true })

/-- The stop command reaches a die, which issues nothing more (R352, R368). -/
def execStopArrival (die : Nat) (s : State) : Host.Outcome State Fault Refusal :=
  .next (match s.driver die with
    | some c => if (s.ctx c).stopping then s.updDie die fun y => { y with stopped := true } else s
    | none => s)

/-- The packets that no die has issued are gone from the queues and the tree; the resend buffer keeps them (R354, R368). -/
def State.dropUnissued (s : State) (c : Nat) : State :=
  let s1 := s.updCtx c fun x => { x with wire := [], used := [], credits := [] }
  (s.issueSet c).foldl (fun t d => t.updDie d fun y => { y with queue := [], permHeld := false }) s1

/-- The fault that the record reports: the lowest bundle, then the lowest die (R353). -/
def State.firstFault (s : State) (c : Nat) : Option (Nat × DFault) :=
  (s.issueSet c).foldl (fun (a : Option (Nat × DFault)) d =>
    match (s.die d).fault, a with
    | some f, some b => if f.bsn < b.2.bsn || (f.bsn == b.2.bsn && d < b.1) then some (d, f) else a
    | some f, none => some (d, f)
    | none, _ => a) none

/-- The frozen-context record of a die fault (R356, R357). -/
def State.faultRecord (s : State) (c d : Nat) (f : DFault) : Fcr :=
  let l := f.lanes.headD 0
  { dief := true, die := s.cdn d, quad := l / 1024, slot := f.slot, cmask := f.cmask, detail := f.walk, cause := f.cause, f := f.bsn,
    addrF := f.addr, g := (s.ctx c).bsn, data := BitVec.ofNat 56 f.data, nlane := f.lanes.length, flane := l, field := f.field,
    scw := f.scw, lmask := f.lanes }

/-- Taking a die fault (R352, R356 to R358): once every die has stopped and every issued slot has delivered, the context is FROZEN
with its record, and the trap message is posted. The record's fault leaves its die, which may meet another while the context stands
(R353). A pre-emption that met it goes on (R372). -/
def execContextFrozen (ctx : Nat) (s : State) : Host.Outcome State Fault Refusal :=
  let x := s.ctx ctx
  .next (if !x.stopping || x.frozen || x.swapped || x.saved || x.killed || x.isSpec || !s.allStopped ctx then s
    else match s.firstFault ctx with
      | some (d, f) =>
        ((s.dropUnissued ctx).updDie d fun y => { y with fault := none }).updCtx ctx fun x =>
          { x with frozen := true, trappend := true, stopping := x.preempt, fcr := s.faultRecord ctx d f, recFault := some (d, f) }
      | none => s)

/-! ### Resuming (R355) -/

/-- A die has issued a packet. -/
def Die.passed (y : Die) (p : Packet) : Bool :=
  match y.frontier with
  | some f => p.bsn ≤ f
  | none => false

/-- A packet goes to a die on a resend: on a die that a rewind restores, replayed packets and those behind the replay (R386). -/
def Ctx.resendTo (x : Ctx) (d : Nat) (p : Packet) : Bool :=
  match x.seg.rewind with
  | some r => !r.faulted.contains d || p.replay.isSome || r.upto ≤ p.bsn || r.beyond p
  | none => true

/-- The buffered packets from the oldest that some die has not issued. -/
def State.toResend (s : State) (c : Nat) : List Packet :=
  (s.ctx c).resend.dropWhile fun p => (s.issueSet c).all fun d => (s.die d).passed p

/-- Those packets go to each die again (R354, R355). -/
def State.resend (s : State) (c : Nat) : State :=
  let x := s.ctx c
  let es := (s.toResend c).flatMap fun p => ((s.issueSet c).filter fun d => x.resendTo d p).map fun d => (d, p)
  s.updCtx c fun y =>
    { y with wire := y.wire ++ es, used := es.foldl (fun t e => Tbl.put t e.1 (Tbl.get 0 t e.1 + 1)) y.used }

/-- A packet to be sent again whose entry of the resend buffer holds an uncorrectable error (R375, R381). -/
def State.resendBad (s : State) (c : Nat) : Option Packet :=
  (s.toResend c).find? fun p => (s.ctx c).bad.contains (.resend p.bsn)

/-- The dies of a context issue again, from the packets that they had not issued; an error that the resend meets is consumed (R355,
R381). -/
def State.awake (s : State) (c : Nat) : State :=
  let s1 := (s.issueSet c).foldl (fun t d => t.updDie d fun y => { y with stopped := y.fault.isSome }) s
  match s.resendBad c with
  | some p =>
    (s1.resend c).consume c (s.issueSet c) (s.seqBank c) { uc := true, kind := 2, w2 := Config.syndrome s.stepNo } p.bsn false
  | none => s1.resend c

/-- The context goes on: its dies issue again, the packets are resent, and what waited while it stood evaluates again (R331, R355,
R425). -/
def State.resume (s : State) (c : Nat) : State := ((s.awake c).wakeColl c).post (.sigwaitPollTimer c)

/-! ### ERET (R338, R355) -/

/-- The slots of a packet that a completion mask lacks. -/
def Packet.left (p : Packet) (m : BitVec 8) : List (Nat × Instr) := p.slots.filter fun e => !m.getLsbD e.1

/-- The tokens of abandoned slots are DONE (R338). -/
def Die.doneToks (y : Die) (l : List Tok) : Die := l.foldl (fun y t => y.setTok t false) y

/-- The frontier is at least this bundle. -/
def Die.reach (y : Die) (b : BitVec 48) : Die :=
  { y with frontier := match y.frontier with
      | some f => if f < b then some b else some f
      | none => some b }

/-- A bundle is complete on a die: the frontier moves, and a closed segment waits for its commit (R352, R384). -/
def Die.issued (y : Die) (p : Packet) : Die :=
  let z := y.reach p.bsn
  { z with commitWait := z.commitWait || p.rv, commitOff := false }

/-- A die treats the bundle of an operation that its gang did not complete as complete: a bundle it has not issued still rotates its
registers (R355, R449). -/
def Die.passGang (y : Die) (p : Option Packet) (b : BitVec 48) : Die :=
  if y.frontier.any fun f => b ≤ f then y
  else match p with
    | some q => { y with regs := y.regs.rotate q.rotn.toNat }.issued q
    | none => y.reach b

/-- An abandoned engine command: its token is DONE, and a drained tile is READY after its last drain (R338, R355). -/
def Die.abandonCmd (y : Die) (c : Cmd) : Die :=
  let z := y.endTok c.bsn c.slot c.tout
  match c.kind with
  | .copyOut => z.updTile (BitVec.ofNat 8 c.tile) fun t => t.undrained c.tout (z.otherDrains z.cmds.length c.tile)
  | _ => z

/-- A multicast goes on without a die that has abandoned it. -/
def State.leaveMcast (s : State) (d : Nat) (c : Cmd) : State :=
  match c.kind with
  | .mcast m ds =>
    let rest := ds.filter (· != d)
    rest.foldl (fun t e => t.updDie e fun y =>
      { y with cmds := y.cmds.map fun k => if s.mate d c e k then { k with kind := .mcast m rest } else k }) s
  | _ => s

/-- What is left of a Y slot at the sequencer goes with it: the gather, the gang operation and the registers that wait (R338). -/
def State.abandonY (s : State) (c : Nat) (b : BitVec 48) : State :=
  let s1 := match (s.ctx c).gathers.find? (·.bsn == b) with
    | some g =>
      (s.endGather c g).updCtx c fun x =>
        { x.gathered b with pendX := x.pendX.filter fun e => !(e.2 == b && g.kind.dests.contains e.1) }
    | none => s
  s1.updCtx c fun x => { x with gops := x.gops.filter (·.bsn != b) }

/-- Slots of a bundle that a second fault of it left to be done are abandoned with it. -/
def Die.dropRedo (y : Die) (b : BitVec 48) : Die :=
  match y.redo with
  | some (.slots p _ _) => if p.bsn == b then { y with redo := none } else y
  | _ => y

/-- Failing lanes of a bundle's remote accesses are abandoned with it. -/
def State.dropRemote (s : State) (d : Nat) (b : BitVec 48) : State :=
  let mine (a : RAcc) : Bool := a.bsn == b && s.remoteBad a
  let l := (s.die d).rq.filter mine
  s.updDie d fun y => l.foldl (fun y a => y.endResv a.bsn a.slot) { y with rq := y.rq.filter fun a => !mine a }

/-- An engine command of a bundle that faulted beside the fault that stands is abandoned with it: a filled tile is as its fault left it. -/
def Die.leaveCmd (y : Die) (i : Nat) (c : Cmd) : Die :=
  (match c.kind with
   | .copyOut => y.drainEnd i c
   | _ => y.fillEnd i c false).endTok c.bsn c.slot c.tout

/-- Every such command of a bundle on a die. -/
def State.dropAgain (s : State) (d : Nat) (b : BitVec 48) : State :=
  ((s.die d).cmds.filter fun c => c.again && c.bsn == b).foldl (fun t c =>
    match (t.die d).cmds.findIdx? (· == c) with
    | some i => (t.updDie d fun y => y.leaveCmd i c).leaveMcast d c
    | none => t) s

/-- The faulted die treats its bundle as complete (R338, R355): every slot of it that had not completed is abandoned, its token is DONE, and
its marks are gone. -/
def State.skipFault (s : State) (c d : Nat) (f : DFault) : State :=
  let t := ((s.updDie d fun y => y.dropRedo f.bsn).dropRemote d f.bsn).dropAgain d f.bsn
  match f.redo with
  | .slots p _ m =>
    let l := p.left m
    let t1 := t.updDie d fun y => (y.doneToks (l.filterMap fun e => toutOf e.2)).issued p
    if l.any (·.1 == 7) then t1.abandonY c f.bsn else t1
  | .remote [] =>
    let p := (s.ctx c).resend.find? (·.bsn == f.bsn)
    let l := ((p.map fun q => q.left f.cmask).getD []).filterMap fun e => toutOf e.2
    (t.updDie d fun y => (y.doneToks l).passGang p f.bsn).abandonY c f.bsn
  | .remote l => t.updDie d fun y => (y.unmarkRemote l).endResv f.bsn f.slot
  | .cmd k => (t.updDie d fun y => y.abandonCmd k).leaveMcast d k

/-- ERET resumes this context (R338, R372, R387). -/
def State.canResume (s : State) (p : Nat) : Bool :=
  let x := s.ctx p
  x.frozen && !x.swapped && !x.saved && !x.stopping && !x.killed && !x.mcheck

/-- The context is FROZEN no more: its record and message are gone. -/
def Ctx.thawed (x : Ctx) : Ctx := { x with frozen := false, trappend := false, fcr := {}, recFault := none, trapToks := [] }

/-- A sequencer-detected cause: the bundle runs again, or counts as completed (R338). -/
def Ctx.pastTrap (x : Ctx) (skip : Bool) : Ctx := if skip then { x.thawed with pc := x.pc + 64, bsn := x.bsn + 1 } else x.thawed

/-- A bundle frozen by a sequencer-detected cause is skipped: the tokens of its slots are DONE, and it counts as completed (R338, R344). Its
RV has no effect, as it has issued to no die: the model's choice (log 21). -/
def State.skipTrap (s : State) (c : Nat) : State :=
  let l := (s.ctx c).trapToks
  ((s.issueSet c).foldl (fun t d => t.updDie d fun y => y.doneToks l) s).count c 0x01 1

/-- Returning from an exception (R338, R355): the frozen context of a partition resumes, by replay or by skip. What dies faulted on beside
the record is done again. -/
def State.eret (s : State) (p : Nat) (skip : Bool) : State :=
  let x := s.ctx p
  if !x.fcr.dief then
    ((if skip then s.skipTrap p else s).updCtx p fun x => x.pastTrap skip).post (.sigwaitPollTimer p)
  else
    let s1 := match x.recFault with
      | some (d, f) => if skip then s.skipFault p d f else s.updDie d fun y => y.putBack f.redo
      | none => s
    let s2 := (s.issueSet p).foldl (fun t e => t.updDie e fun y => y.redoFault.unagain) s1
    (s2.updCtx p Ctx.thawed).resume p

/-- ERET on the purser pair: XD is 0 if the context resumes, 1 otherwise (R338). -/
def State.eretX (s : State) (xd xa : Reg) (skip : Bool) : State :=
  s.privileged (match s.partNo (s.x xa) with
    | some p => if s.canResume p then (s.eret p skip).setX xd 0 else s.setX xd 1
    | none => s.setX xd 1)

def execEretReplay (xd xa : Reg) (s : State) : Host.Outcome State Fault Refusal :=
  .next (match s.cur.side with
    | .seq => s.eretX xd xa false
    | .die => s)

def execEretSkip (xd xa : Reg) (s : State) : Host.Outcome State Fault Refusal :=
  .next (match s.cur.side with
    | .seq => s.eretX xd xa true
    | .die => s)

/-! ### RRFILL (R339, R360) -/

/-- The pending mark of a retired entry goes. -/
def Die.unmark (y : Die) (a : GAcc) : Die := { y with marks := y.marks.erase (a.lane, sliceSet a.dst) }

/-- A retry entry is retired, and a held lane takes its place (R359, R360). -/
def State.rrRetire (s : State) (d idx : Nat) (a : GAcc) : State :=
  (s.updDie d fun y => { y.unmark a with ring := y.ring.del idx }).promote d

/-- What `.retry` does with the translated access: the status, and its effect. A bad line of the cache ways that a load meets is gone, and a miss
that meets poison counts (R344, R381). -/
def State.retryAt (s : State) (d idx : Nat) (a : GAcc) (pa : Nat) : State × Nat :=
  let way := s.cached d pa a.dev && (s.die d).cbad pa
  let poison (t : State) : State × Nat :=
    (t.logErr (s.vaultBank d)
      { uc := true, kind := if way then 2 else 5, part := some d, w1 := if way then w64 (pa / 128 * 128) else w64 pa,
        w2 := Config.syndrome s.stepNo, w3 := a.bsn.setWidth 64 }, 4)
  match a.op with
  | .store v => ((s.dieStore d pa a.size v.toNat a.dev).rrRetire d idx a, 0)
  | .load =>
    (match s.dieLoad d pa a.size a.dev with
     | (t, some v) => ((t.updDie d fun y => y.landLane a.bsn a.slot a.lane a.dst a.keep v).rrRetire d idx a, 0)
     | (t, none) => poison t)
  | .amo f b c =>
    (match s.dieAmo d pa a.size f b c with
     | (t, some old) => ((t.updDie d fun y => y.landLane a.bsn a.slot a.lane a.dst a.keep old).rrRetire d idx a, 0)
     | (t, none) => poison t)

/-- The partition and entry that XA names, if the entry is valid (R339). -/
def State.rrEntry (s : State) (v : W64) : Option (Nat × Nat × RetryE) :=
  let p := bf v 18 12
  let i := bf v 11 0
  if s.nparts ≤ p || s.ringSize ≤ i then none else (Tbl.get? (s.die p).ring i).map fun e => (p, i, e)

/-- `RRFILL.retry`: the access is made again with the tables as they stand (R339). -/
def State.rrRetry (s : State) (p i : Nat) (a : GAcc) : State × Nat :=
  match s.translate (s.die p).tlb (s.dieXlat p) a.kind a.isAmo a.va with
  | .error _ => (s, 1)
  | .ok (pa, e) => (s.updDie p fun y => { y with tlb := tlbAdd s.xinvBusy y.tlb e }).retryAt p i a pa

/-- RRFILL on an entry whose bytes in the system way hold an uncorrectable error (R375): status POISON, and the die's bank records it; the
entry and its mark stay. DESIGN CHOICE (log 22): R339 speaks of poison that `.retry` receives. -/
def State.rrBad (s : State) (p : Nat) : State × Nat :=
  (s.logErr (s.vaultBank p) { uc := true, kind := 2, part := some p, w2 := Config.syndrome s.stepNo }, 4)

/-- `RRFILL.data`: the purser's data for a load (R339). -/
def State.rrData (s : State) (p i : Nat) (a : GAcc) (v : W64) : State × Nat :=
  match a.op with
  | .load => ((s.updDie p fun y => y.landLane a.bsn a.slot a.lane a.dst a.keep v.toNat).rrRetire p i a, 0)
  | _ => (s, 2)

/-- The data of an entry may land: no matrix multiply of its bundle has still to read the slices (R70). -/
def State.rrLands (s : State) (p : Nat) (a : GAcc) : Bool := (s.die p).mayLand a.bsn (sliceSet a.dst)

def execRrfillRetry (xd xa : Reg) (s : State) : Host.Outcome State Fault Refusal :=
  .next (match s.cur.side with
    | .die => s
    | .seq =>
      s.privileged (match s.rrEntry (s.x xa) with
        | some (p, i, e) =>
          if !s.rrLands p e.acc then s.stall
          else
            let r := if e.bad then s.rrBad p else s.rrRetry p i e.acc
            r.1.setX xd (w64 r.2)
        | none => s.setX xd 3))

def execRrfillData (xd xa xb : Reg) (s : State) : Host.Outcome State Fault Refusal :=
  .next (match s.cur.side with
    | .die => s
    | .seq =>
      s.privileged (match s.rrEntry (s.x xa) with
        | some (p, i, e) =>
          if !s.rrLands p e.acc then s.stall
          else
            let r := if e.bad then s.rrBad p else s.rrData p i e.acc (s.x xb)
            r.1.setX xd (w64 r.2)
        | none => s.setX xd 3))

/-! ### KILL, PREEMPT, RESTORE (R367 to R373) -/

/-- A launch is on the context and has not drained. -/
def Ctx.live (x : Ctx) : Bool := x.lst == .entry || x.lst == .running || x.lst == .exited

/-- The contexts of a gang: all its streams, or one (R293). -/
def State.gangCtxs (s : State) (c : Nat) : List Nat := c :: s.partners c

/-- A command for this context is taken: none is in progress and the context exists (R367). -/
def State.svcTakes (s : State) (p : Nat) : Bool := s.cmdBusy.isNone && p < s.nparts

/-- KILL (R371, R373). -/
def State.svcKill (p : Nat) (s : State) : State :=
  let x := s.ctx p
  if !s.svcTakes p then s
    else if x.isSpec then s.discard p 62
    else if !x.live || x.killed then s
    else { s.killCtx p with cmdBusy := some (1, p) }

def execSvccmdKill (p : Nat) (s : State) : Host.Outcome State Fault Refusal := .next (s.svcKill p)

/-- The contexts of a gang begin to stop (R368, R370). -/
def State.preemptGang (s : State) (p : Nat) : State :=
  (s.gangCtxs p).foldl (fun t c => t.updCtx c fun y => if y.live && !y.killed then { y with preempt := true, stopping := true } else y) s

/-- A context that a pre-emption can stop: it runs a launch, which is neither saved nor killed (R371, R372). -/
def Ctx.preemptible (x : Ctx) : Bool := x.live && !x.swapped && !x.killed

/-- PREEMPT: the gang stops as a whole (R368, R370, R372, R373). -/
def State.svcPreempt (p : Nat) (s : State) : State :=
  let x := s.ctx p
  if !s.svcTakes p then s
    else if x.isSpec then s.discard p 62
    else if !x.preemptible then s
    else { s.preemptGang p with cmdBusy := some (2, p) }

/-- The Landing pre-empts a context to schedule its partition's work, whether SVCCMD is busy or not (R367). When it does so is its own choice,
on which the spec is silent: the act comes to the machine from outside (log 22). -/
def State.landPreempt (s : State) (p : Nat) : State :=
  let x := s.ctx p
  if s.nparts ≤ p then s
    else if x.isSpec then s.discard p 62
    else if !x.preemptible then s
    else s.preemptGang p

/-- PREEMPT by SVCCMD (R367). -/
def execSvccmdPreempt (p : Nat) (s : State) : Host.Outcome State Fault Refusal := .next (s.svcPreempt p)

/-- A request for a bollard is made again, behind those that arrived in between (R266). -/
def State.askAgain (s : State) (c : Nat) : State :=
  match (s.ctx c).asked with
  | some (a, ex) => s.updBollard a fun b => { b with reqs := b.reqs ++ [(c, ex)] }
  | none => s

/-- A reply that came while the context was pre-empted is written (R337). -/
def State.giveReply (s : State) (c : Nat) : State :=
  match (s.ctx c).mbox, (s.ctx c).mboxKept with
  | some ((xd, b), _, _), some v => (s.updCtx c fun x => { x with mbox := none, mboxKept := none }).deliverX c xd b v
  | _, _ => s

/-- What the restore of a context reads from its dies' shadows and from the sequencer shadow in the lowest die's system way: their units with an
uncorrectable error (R370, R375, R390). -/
def State.shadowErrs (s : State) (c : Nat) : List (Nat × ErrIn) :=
  let e : ErrIn := { uc := true, kind := 2, w2 := Config.syndrome s.stepNo }
  ((s.issueSet c).flatMap fun d => (s.die d).bad.map fun _ => (s.vaultBank d, e)) ++
    (s.ctx c).bad.map fun _ => (s.vaultBank ((s.gangDies c).headD c), e)

/-- A saved context is back: FROZEN if it was, else it resumes (R370). The dies of one that a sequencer-detected cause froze go on, as they
do while it stands (R351). The instruction cache and the translation caches are empty. A unit with an error in its shadow keeps it, and the
banks record it. The replay queues, which R370's table does not list, stay on their dies through the save, and repair afterwards as before:
DESIGN CHOICE (log 22). -/
def State.restore (s : State) (c : Nat) : State :=
  if !(s.ctx c).swapped then s
  else
    let s1 := s.updCtx c fun x => { x with swapped := false, icache := [], tlb := [] }
    let s2 := (s.issueSet c).foldl (fun t d => t.updDie d fun y =>
      { y with tlb := [], cmds := y.cmds.map fun k => { k with detached := false } }) s1
    let s3 := ((s2.askAgain c).giveReply c).logErrs (s.shadowErrs c)
    if !(s3.ctx c).frozen then s3.resume c
    else if (s3.ctx c).fcr.dief || (s3.ctx c).mcheck then s3
    else s3.awake c

/-- The partitions of a saved launch are free for its restore: no other gang holds one of them (R293, R370). -/
def State.mayRestore (s : State) (p : Nat) : Bool :=
  (s.gangDies p).all fun d => (s.part d).gang.isNone || (s.part d).gang == (s.ctx p).task

/-- The launch reserves its partitions again (R293, R370). -/
def State.reserveAgain (s : State) (p : Nat) : State :=
  (s.gangDies p).foldl (fun t d => t.updPart d fun x => { x with gang := if lGMode (s.ctx p).lrec == 0 then x.gang else (s.ctx p).task }) s

/-- RESTORE (R370, R372). A saved launch keeps its partitions in this model, so that its reservation is obtained at once (log 21). -/
def State.svcRestore (p : Nat) (s : State) : State :=
  if !s.svcTakes p || !(s.ctx p).swapped || !s.mayRestore p then s else (s.gangCtxs p).foldl State.restore (s.reserveAgain p)

def execSvccmdRestore (p : Nat) (s : State) : Host.Outcome State Fault Refusal := .next (s.svcRestore p)

/-- The stop is complete: the port is empty and a die fault has frozen the context (R368, R372). -/
def State.stopDone (s : State) (c : Nat) : Bool :=
  let x := s.ctx c
  x.stopping && !x.swapped && !x.saved && !x.isSpec && s.allStopped c && x.port.isEmpty &&
    (x.frozen || x.killed || (s.faulted c).isEmpty)

/-- A pre-empted context has stopped: its commands that run detach, its bollard request is withdrawn, and its save begins (R266, R369,
R370). -/
def State.detach (s : State) (c : Nat) : State :=
  let s1 := match (s.ctx c).asked with
    | some (a, _) => s.updBollard a fun b => { b with reqs := b.reqs.filter (·.1 != c) }
    | none => s
  let s2 := (s.issueSet c).foldl (fun t d => t.updDie d fun y =>
    { y with cmds := y.cmds.map fun k => if k.started && !k.stays then { k with detached := true } else k }) s1
  (s2.dropUnissued c).updCtx c fun x => { x with preempt := false, saved := true }

/-- A die without anything of the launch that ran on it but commands that outlive it. -/
def Die.cleared (y : Die) : Die :=
  { y with
    queue := [], stopped := false, fault := none, redo := none, flights := [], mmuls := [], mq := [], gq := [], rq := [], resv := [],
    twait := [], fence := none, bacq := none, commitWait := false, commitOff := false, mutes := [], reps := [], ring := [], ringNext := 0,
    heldLanes := [], marks := [], replayQ := [], ckpt := none, vitrine := [], vbad := [], permHeld := false, permW := none,
    cmds := y.cmds.filter Cmd.stays }

/-- The started commands of a launch have run to completion (R371). -/
def Die.cmdsDone (y : Die) : Bool := y.cmds.all fun c => c.stays || !c.started

/-- The accession of a record is cancelled. -/
def State.collCancelled (s : State) (c : Nat) (r : CollRec) : Bool :=
  match s.accn? (s.collJob c).toNat r.gid r.seq with
  | some a => a.st == .cancelled && a.mirrored
  | none => false

/-- The uncompleted collectives of a killed context, with their places. -/
def Ctx.openColls (x : Ctx) : List (Nat × CollRec) := (x.colls.zipIdx.filter fun e => !e.1.isDone).map fun e => (e.2, e.1)

/-- Collectives of a killed context whose accession is cancelled complete CANCELLED; their member counts as having issued them, and others
take their places (R426, R429, R430). -/
def State.endColls (s : State) (c : Nat) : State :=
  (((s.ctx c).openColls.filter fun e => s.collCancelled c e.2).foldl (fun t e =>
    let part := t.collPart c e.2
    (t.updAccn (t.collJob c).toNat e.2.gid e.2.seq fun a => { a with requested := part :: a.requested }).finishColl c e.1 e.2 1) s).pump

/-- The FAULT field of a killed launch: the cause and die of its trap, or zero (R371). -/
def Ctx.killFault (x : Ctx) : BitVec 32 :=
  if x.frozen then BitVec.ofNat 32 (x.fcr.die * 65536 + x.fcr.cause.toNat) else 0

/-- SVCCMD is done with a context (R367). -/
def State.cmdDone (s : State) (c : Nat) : State :=
  match s.cmdBusy with
  | some (1, p) => if p == c then { s with cmdBusy := none } else s
  | some (2, p) => if (s.gangCtxs p).all fun k => !(s.ctx k).stopping then { s with cmdBusy := none } else s
  | _ => s

/-- A killed context is discarded (R371): bound lines are written back, bollards released, those of a BREL in progress among them, and what
is left of the launch goes (R265, R266). -/
def State.discardKilled (s : State) (c : Nat) : State :=
  let x := s.ctx c
  let s1 := (x.held ++ x.releasing).foldl (fun t a => (s.issueSet c).foldl (fun u d => u.cleanBound c d a) t) s
  let s2 := s1.releaseHeld c
  let s3 := (s.issueSet c).foldl (fun t d => t.updDie d Die.cleared) s2
  let s4 := s3.updCtx c fun y =>
    { y with lst := .drained, frozen := false, stopping := false, preempt := false, trappend := false, wire := [], used := [],
             credits := [], resend := [], port := [], pendX := [], wait := .none, gathers := [], gops := [], mbox := none, mboxKept := none,
             cancels := [], seg := Seg.reset, mismatch := false, bad := [], fcr := {}, recFault := none, trapToks := [] }
  let s5 := match x.task with
    | some id => s4.updTask id fun t => if t.status == 0 then { t with status := 4, fault := x.killFault } else t
    | none => s4
  s5.cmdDone c

/-- A killed context has stopped: its collectives are cancelled or end, its started commands finish, and it is discarded (R369, R371,
R426). -/
def State.killStep (s : State) (c : Nat) : State :=
  let s1 := s.endColls c
  let left := (s1.ctx c).openColls
  if left.isEmpty then
    if (s1.issueSet c).all fun d => (s1.die d).cmdsDone then s1.discardKilled c else s1
  else left.foldl (fun t e => t.askCancel (s.collJob c).toNat e.2.gid e.2.seq) s1

/-- A context has stopped under R368: a killed one is discarded, a pre-empted one detaches its commands and is saved. -/
def execContextStopped (ctx : Nat) (s : State) : Host.Outcome State Fault Refusal :=
  let x := s.ctx ctx
  .next (if !s.stopDone ctx then s
    else if x.killed then s.killStep ctx
    else if x.preempt then s.detach ctx
    else s)

/-- The bad weight planes of a die: quadrant, and the MLDS that filled it. -/
def Die.badPlanes (y : Die) : List (Nat × Option (BitVec 48)) :=
  y.arrs.zipIdx.flatMap fun e => (if e.1.badA then [(e.2, e.1.fillA)] else []) ++ if e.1.badS then [(e.2, e.1.fillS)] else []

/-- The uncorrectable errors that the save of a die reads: slices, weight planes, and units under SEC-DED. Nothing consumes them, so only their
banks change (R375, R381). -/
def State.saveErrs (s : State) (d : Nat) : List (Nat × ErrIn) :=
  let y := s.die d
  ((y.parity.filter fun e => !y.repairable e).map fun e => s.sliceErr d true 0 e.1 e) ++
    ((y.badPlanes.filter fun e => !y.reloads e.2).map fun e => s.planeErr d true 0 0 e.1) ++
    y.bad.map fun u => (s.unitBank d u, { uc := true, kind := 2, w2 := Config.syndrome s.stepNo })

/-- The save reads the state of a die: slices and weight planes that can be repaired are, and the banks record what is found (R370, R375,
R380). -/
def State.saveDie (s : State) (d : Nat) : State :=
  let y := s.die d
  let fixed := y.badPlanes.filter fun e => y.reloads e.2
  let s1 := (s.repairAll d (y.parity.filter y.repairable)).updDie d fun y =>
    { y with arrs := y.arrs.mapIdx fun q a => (fixed.filter (·.1 == q)).foldl (fun a e => goodPlane e.2 a) a }
  s1.logErrs ((fixed.map fun e => s.planeErr d false 0 0 e.1) ++ s.saveErrs d)

/-- The save reads the state of a sequencer (R370, R375). -/
def State.saveSeq (s : State) (c : Nat) : State :=
  s.logErrs ((s.ctx c).bad.map fun _ => (s.seqBank c, { uc := true, kind := 2, w2 := Config.syndrome s.stepNo }))

/-- The context of a gang is saved: SWAPPED, or discarded where it was killed meanwhile (R370). -/
def State.saveCtx (s : State) (c : Nat) : State :=
  if !(s.ctx c).saved then s
  else if (s.ctx c).killed then s.updCtx c fun x => { x with saved := false }
  else
    ((s.issueSet c).foldl State.saveDie (s.saveSeq c)).updCtx c fun x => { x with saved := false, swapped := true, stopping := false }

/-- The save of a pre-empted gang is complete: its contexts are SWAPPED (R370). A context killed meanwhile is discarded instead. -/
def execContextSaveComplete (ctx : Nat) (s : State) : Host.Outcome State Fault Refusal :=
  let cs := s.gangCtxs ctx
  .next (if !(s.ctx ctx).saved || cs.any fun c => (s.ctx c).live && !(s.ctx c).saved then s
    else
      let s1 := cs.foldl State.saveCtx s
      match s1.cmdBusy with
      | some (2, p) => if cs.contains p then { s1 with cmdBusy := none } else s1
      | _ => s1)

/-- A detached copy or PERM completes: the saved tile entry and token are updated (R369). -/
def execDetachedCopyComplete (die idx : Nat) (s : State) : Host.Outcome State Fault Refusal :=
  .next (match (s.die die).cmds[idx]? with
    | some c =>
      if !c.detached || !c.started then s
      else match c.kind with
        | .copyIn | .mcast _ _ => s.finishFill die idx c
        | .copyOut => s.finishDrain die idx c
        | .perm _ _ => s.finishPerm die idx c
        | .flush _ | .packet _ _ _ _ => s
    | none => s)

/-- A discarded run is gone: its dies have stopped, its accesses and started engine commands have finished into its Vitrine, which is
cleared, and its partition is free (R309, R317, R319). -/
def execSpecDiscardComplete (ctx : Nat) (s : State) : Host.Outcome State Fault Refusal :=
  .next (match (s.ctx ctx).spec with
    | some r =>
      if r.st == .discarding && s.allStopped ctx && (s.ctx ctx).port.isEmpty && (s.issueSet ctx).all fun d => (s.die d).cmdsDone then
        ((s.issueSet ctx).foldl (fun t d => t.updDie d Die.cleared) s).updCtx ctx fun x => { x.accepted with port := [] }
      else s
    | none => s)

/-! ### XINV (R365, R366) -/

/-- An address may lie in a page that an XINV names. -/
def xinvMeets (w : W64) (job : BitVec 16) (va : Nat) : Bool := xinvHits w job 1 (va / 2 ^ 30)

/-- An access whose translation an XINV drops (R365): its cache holds the entry, or has not kept the one that the access used, which an earlier
XINV dropped. -/
def usesDropped (w : W64) (tlb : List TlbE) (job : BitVec 16) (va : Nat) : Bool :=
  (tlb.any fun e => e.dropped w && e.hits job va) || (xinvMeets w job va && !tlb.any fun e => e.hits job va)

/-- A context's cache loses its matching entries, and outstanding accesses that used them are noted. -/
def Ctx.xinv (x : Ctx) (w : W64) (job : BitVec 16) : Ctx :=
  { x with
    tlb := x.tlb.filter fun e => !e.dropped w
    port := x.port.map fun a => { a with xv := a.xv || usesDropped w x.tlb job a.va } }

/-- A die's cache loses its matching entries; the accesses that used them are noted, and those whose walks are in progress (R366). -/
def Die.xinv (y : Die) (w : W64) (job : BitVec 16) : Die :=
  { y with
    tlb := y.tlb.filter fun e => !e.dropped w
    gq := y.gq.map fun a => { a with xv := a.xv || a.walking || usesDropped w y.tlb job a.va } }

/-- XINV starts an invalidation in every cache; a write while one is in progress is ignored (R366). -/
def State.xinv (w : W64) (s : State) : State :=
  if s.xinvBusy.isSome then s
    else
      let s1 : State := { s with ctxs := s.ctxs.map fun e => (e.1, e.2.xinv w (s.ctxXlat e.1).job)
                                 xinvBusy := some w }
      { s1 with dies := s1.dies.map fun e => (e.1, e.2.xinv w (s.dieXlat e.1).job) }

def execXinv (w : W64) (s : State) : Host.Outcome State Fault Refusal := .next (s.xinv w)

/-- A cache holds an entry that an XINV names (R366). -/
def tlbMeets (w : W64) (t : List TlbE) : Bool := t.any (·.dropped w)

/-- A die holds an XINV up: a matching entry, an access that used a dropped one, or one whose walk had started before it (R366). -/
def Die.holdsXinv (y : Die) (w : W64) : Bool := tlbMeets w y.tlb || y.gq.any (·.xv)

/-- A context holds it up: a matching entry, accesses of its port, and signal operations in progress. -/
def Ctx.holdsXinv (x : Ctx) (w : W64) (job : BitVec 16) : Bool :=
  tlbMeets w x.tlb || (x.port.any fun a => a.xv) || x.gathers.any fun g =>
    match g.kind with
    | .sigadd _ _ va _ _ => xinvMeets w job va
    | .sigst _ va _ _ => xinvMeets w job va
    | _ => false

/-- A waiting SIGWAIT takes the translation that now stands, or has none until a later walk finds one (R331, R365). -/
def State.rewait (s : State) (w : W64) (c : Nat) : State :=
  match (s.ctx c).wait with
  | .sig k sc xd va _ v =>
    if xinvMeets w (s.ctxXlat c).job va then
      match s.translate [] (s.ctxXlat c) .load true va with
      | .ok r => s.updCtx c fun x => { x with wait := .sig k sc xd va r.1 v }
      | .error _ => s.updCtx c fun x => { x with wait := .sigLost k sc xd va v }
    else s
  | _ => s

/-- XINVBUSY clears: no cache holds a matching entry, and no walk or access that used one is left (R366). -/
def execXinvComplete (s : State) : Host.Outcome State Fault Refusal :=
  .next (match s.xinvBusy with
    | some w =>
      if (s.dies.any fun e => e.2.holdsXinv w) || s.ctxs.any fun e => e.2.holdsXinv w (s.ctxXlat e.1).job then s
      else { (s.ctxs.map (·.1)).foldl (fun t c => t.rewait w c) s with xinvBusy := none }
    | none => s)

/-! ### TRAPPEND (R356, R358) -/

/-- A W1C write to TRAPPEND0 or TRAPPEND1. -/
def State.trapAck (hi : Bool) (w : W64) (s : State) : State :=
  let base := if hi then 64 else 0
  { s with ctxs := s.ctxs.map fun e =>
            (e.1, if base ≤ e.1 && e.1 < base + 64 && e.1 < s.nparts && w.getLsbD (e.1 - base) then { e.2 with trappend := false } else e.2) }

def execTrappendW1c (hi : Bool) (w : W64) (s : State) : Host.Outcome State Fault Refusal := .next (s.trapAck hi w)

end Sys2Proof.Machine
end

