-- ==== Sys2Proof/Machine/Reliab.lean ====
section
/-! DEFINITION. Reliability (R375 to R394): stored errors, retransmissions, the steps of a segment rewind and of a commit, error banks,
and the repair of a vertical bus. -/

namespace Sys2Proof.Machine

/-! ### Commit (R384) -/

/-- Everything that a die's bundles have issued has completed. -/
def Die.settled (y : Die) : Bool :=
  y.flights.isEmpty && y.gq.isEmpty && y.rq.isEmpty && y.mmuls.isEmpty && y.mq.isEmpty && y.permW.isNone

/-- A die has reached the RV bundle of a BSN, and, if it was enabled there, has completed it and everything before it; a disabled die reports
at once (R384, R407). -/
def Die.closed (y : Die) (b : BitVec 48) : Bool :=
  y.commitWait && (y.frontier.any fun f => b ≤ f) && y.fault.isNone && y.redo.isNone && (y.commitOff || y.settled)

/-- The closed segment of a context can commit: every enabled die has completed its RV bundle, and every earlier access of the sequencer has
returned (R384). -/
def State.commits (s : State) (c : Nat) : Bool :=
  let x := s.ctx c
  !x.swapped && !x.saved && !x.mcheck && x.recFault.isNone &&
    (match x.seg.closing with
     | some (b, _) => x.port.all (fun a => b < a.bsn) && (s.issueSet c).all fun d => (s.die d).closed b
     | none => false)

/-- The next segment is the current one, with the checkpoint that its entry took (R383, R384). -/
def Seg.advance (g : Seg) : Seg :=
  match g.closing with
  | some (b, _) =>
    { g with ckpt := g.next, entry := b + 1, closing := none, next := none, unrep := g.unrepNext, unrepNext := false,
             consumed := g.consumedNext, consumedNext := 0, mismatches := g.mismatchesNext, mismatchesNext := 0, rewind := none }
  | none => g

/-- A segment commits: the dies take their checkpoints and go on (R383, R384). -/
def execSegmentCommit (ctx : Nat) (s : State) : Host.Outcome State Fault Refusal :=
  .next (if s.commits ctx then
      (s.issueSet ctx).foldl (fun t d => t.updDie d fun y => { y with commitWait := false, commitOff := false, ckpt := some y.checkpoint })
        (s.updCtx ctx fun x => { x with seg := x.seg.advance })
    else s)

/-! ### Rewind (R386) -/

/-- A die that finishes what it has issued: nothing of the segment is left on it but multicasts that nothing has read (R386, step 2). -/
def Die.finished (y : Die) (entry : BitVec 48) : Bool :=
  y.quiet && y.rq.isEmpty && y.cmds.all fun c =>
    c.stays || c.bsn < entry || (match c.kind with
      | .mcast _ _ => c.buf.isNone
      | .flush _ => !y.accDone c.limit
      | _ => false)

/-- The token of a command that goes on. -/
def Die.producing (y : Die) (t : Nat) : Bool := y.cmds.any fun c => c.tout.toNat == t && !(match c.kind with | .packet _ _ _ _ => true | _ => false)

/-- The tokens of the uncompleted collectives of a die, which took them where it issued them enabled (R424). -/
def Ctx.collToks (x : Ctx) (d : Nat) (y : Die) : List Nat :=
  (x.colls.filter fun r =>
    !r.isDone && r.dies.contains d && (r.st != .waitTok || y.reps.any fun p => p.bsn == r.bsn && p.enabled)).map fun r => r.tout.toNat

/-- A fault met since the rewind began goes with it, unless it is that of an engine command of an earlier segment, which starts again. -/
def Die.pastFault (y : Die) (entry : BitVec 48) : Die := if y.fault.any fun f => f.bsn < entry then y.redoFault else y.dropFault

/-- Units with an error once a checkpoint of the predicates of these quadrants, views, dc registers and tokens is restored (R383). -/
def goodUnits (quads : BitVec 4) (bad : List DieUnit) : List DieUnit :=
  bad.filter fun u => match u with
    | .pred l _ => !quads.getLsbD (l / 1024)
    | .tile _ => true
    | .desc _ => true
    | _ => false

/-- A faulted die's registers as its checkpoint has them, the predicates and logs of the checkpoint's quadrants among them; a token that a
command of an earlier segment produced in the meantime stays DONE (R383, R386, step 2). `held`: tokens of collectives. -/
def Die.restoreCkpt (y : Die) (entry : BitVec 48) (k : DieCkpt) (held : List Nat) : Die :=
  let w := y.pastFault entry
  let z : Die := { w with cmds := w.cmds.filter fun c => c.stays || c.bsn < entry }
  { z with
    regs :=
      { z.regs with
        lanes := z.regs.lanes.mapIdx fun pos l => if k.quads.getLsbD (pos / 1024) then { l with pr := k.prs.getD pos l.pr } else l
        prb := k.prb
        views := k.views
        dcs := k.dcs
        dmask := k.dmask
        qmask := k.qmask }
    toks := k.toks.mapIdx fun t p => p && (z.producing t || held.contains t)
    felogs := z.felogs.mapIdx fun q l => if k.quads.getLsbD q then k.felogs.getD q l else l
    bad := goodUnits k.quads z.bad
    mutes := z.mutes.filter fun e => e.1 < entry
    frontier := if entry == 0 then none else some (entry - 1)
    commitWait := false
    commitOff := false
    twait := []
    fence := none
    bacq := none
    redo := none
    fault := none
    stopped := false
    resv := [] }

/-- A faulted die has finished what it issued and restores its checkpoint (R386, step 2). -/
def execFaultedDieRestore (die : Nat) (s : State) : Host.Outcome State Fault Refusal :=
  .next (match s.driver die with
    | some c =>
      let x := s.ctx c
      (match x.seg.rewind, (s.die die).ckpt with
       | some r, some k =>
         if r.faulted.contains die && !r.restored.contains die && !x.swapped && !x.saved && !x.mcheck &&
             (s.die die).finished x.seg.entry then
           (s.updDie die fun y => y.restoreCkpt x.seg.entry k (x.collToks die y)).updCtx c fun x =>
             { x with seg := { x.seg with rewind := some { r with restored := die :: r.restored } } }
         else s
       | _, _ => s)
    | none => s)

/-- Every faulted die has restored its checkpoint: the sequencer sends the segment's bundles again (R386, step 3). -/
def execReplayResend (ctx : Nat) (s : State) : Host.Outcome State Fault Refusal :=
  .next (match (s.ctx ctx).seg.rewind with
    | some r =>
      if r.faulted.all r.restored.contains then
        s.updCtx ctx fun x => { x with seg := { x.seg with rewind := some { r with replaying := true } } }
      else s
    | none => s)

/-! ### Errors of links (R375, R387, R391, R416) -/

/-- A bank of a tree hub and its mesh links (R390). -/
def isTreeBank (b : Nat) : Bool := 128 ≤ b && b < 640 && b % 8 == 6

/-- A packet that fails its CRC is sent again; a tree or mesh packet that fails 16 times is a machine check with LINK (R375, R387). -/
def execLinkRetransmit (ctx failures bank : Nat) (s : State) : Host.Outcome State Fault Refusal :=
  let e : ErrIn := { uc := false, kind := 3, w2 := Config.syndrome s.stepNo }
  let x := s.ctx ctx
  .next (if !bankListed bank then s
    else if failures < 16 || !isTreeBank bank then s.logErr bank e
    else if !x.busy || x.mcheck || x.killed then s.logErr bank { e with uc := true }
    else if x.isSpec then (s.logErr bank { e with uc := true, part := some ctx }).discard ctx 62
    else (s.logErr bank { e with uc := true, mc := true, part := some ctx }).machineCheck ctx 0x0207 bank)

/-! ### Stored errors (R375, R381) -/

/-- The physical address lies in memory: HBM or an expander. -/
def State.isMem (s : State) (pa : Nat) : Bool := pa < bellBase || ((portOf pa).isSome && !s.reserved pa)

/-- A slice of a lane has bad parity. -/
def Die.hurt (y : Die) (lane slice : Nat) : Die :=
  if lane < y.regs.lanes.length && slice < 512 && !y.parity.contains (lane, slice) then { y with parity := (lane, slice) :: y.parity }
  else y

/-- The unit of a die with n lanes exists. -/
def unitOk (n : Nat) : DieUnit → Bool
  | .pred lane p => lane < n && 1 ≤ p && p < 16
  | .view k => k < 8
  | .dc k => k < 4
  | .tok k => k < 64
  | .tile k => k < 256
  | .desc k => k < 64

/-- The unit exists and is stored: x0 and q0 are constants (R7, R96). -/
def State.seqUnitOk (s : State) (c : Nat) : SeqUnit → Bool
  | .x n => n != 0
  | .q n => n != 0
  | .loops => !(s.ctx c).loops.isEmpty
  | .slm n => 8 * n < (if s.unprot && c != purser then 0x20000 else 0x40000)
  | .resend b => (s.ctx c).resend.any (·.bsn == b)

/-- A weight plane is bad, and so are the rows that an MMUL in flight has still to drain through it (R375, R382). -/
def Die.strike (y : Die) (q : Nat) (fill : Option (BitVec 48)) (p : Plane) : Die :=
  { y with mmuls := y.mmuls.map fun o =>
      if o.fill q == fill && (o.planes.any fun e => e.1 == q && e.2 == p) && !o.bad.contains q then { o with bad := q :: o.bad } else o }

/-- Adds an element once. -/
def addOnce {α : Type} [BEq α] (a : α) (l : List α) : List α := if l.contains a then l else a :: l

/-- An error strikes. Nothing changes until the state is next read, but a corrected error goes to its bank (R375). The lockstep pair exists
in protected mode, and SP64 always is one (R378, R445). -/
def execStoredError (e : ErrAt) (kind : BitVec 4) (syndrome : W64) (s : State) : Host.Outcome State Fault Refusal :=
  .next (match e with
    | .mem pa => if s.isMem pa then s.addPoison pa else s
    | .cache d pa =>
      if ((s.die d).cline pa).isSome && !(s.die d).cbad pa then s.updDie d fun y => { y with cpoison := (pa / 128) :: y.cpoison } else s
    | .vault d o =>
      if o < s.padSize d then
        s.updDie d fun y => { y with vpoison := (upto 16).foldl (fun l i => addOnce (o / 16 * 16 + i) l) y.vpoison }
      else s
    | .slice d lane sl => s.updDie d fun y => y.hurt lane sl
    | .plane d q =>
      let a := (s.die d).arrs.getD q Arr.reset
      s.updDie d fun y => { y.strike q a.fillA a.act with arrs := y.arrs.modify q fun a => { a with badA := true } }
    | .shadow d q =>
      let a := (s.die d).arrs.getD q Arr.reset
      s.updDie d fun y => { y.strike q a.fillS a.shadow with arrs := y.arrs.modify q fun a => { a with badS := true } }
    | .unit d u => if unitOk s.nlanes u then s.updDie d fun y => { y with bad := addOnce u y.bad } else s
    | .spill d lane g => if lane < s.nlanes && g < 128 then s.updDie d fun y => { y with sbad := addOnce (lane, g) y.sbad } else s
    | .ring d i => s.updDie d fun y => { y with ring := y.ring.map fun e => (e.1, if e.1 == i then { e.2 with bad := true } else e.2) }
    | .vit d line =>
      if (s.die d).vitrine.any (·.line == line) then s.updDie d fun y => { y with vbad := addOnce line y.vbad } else s
    | .lockstep c => if s.unprot && c != purser then s else s.updCtx c fun x => { x with mismatch := true }
    | .seq c u => if s.seqUnitOk c u then s.updCtx c fun x => { x with bad := addOnce u x.bad } else s
    | .corrected b w => if bankListed b then s.logErr b { uc := false, kind := kind, w1 := w, w2 := syndrome } else s)

/-! ### Stores performed (R251) -/

/-- An outstanding store of a context's port or of a die is performed at its home (R251). -/
def execStorePerformed (a : Agent) (idx : Nat) (s : State) : Host.Outcome State Fault Refusal :=
  .next (match a with
    | .seq c => s.performStore c idx
    | .die d => s.performGStore d idx)

/-! ### Banks and buses (R392, R393) -/

/-- ERBCLR: bit 0 clears the bank that ERBSEL names (R392). -/
def State.erbClear (w : W64) (s : State) : State := if w.getLsbD 0 then { s with errs := s.errs.del s.erbsel.toNat } else s

def execErbclr (w : W64) (s : State) : Host.Outcome State Fault Refusal := .next (s.erbClear w)

/-- The repair of a vertical bus changes time only (R393). -/
def execVerticalBusRepair (_ _ : Nat) (s : State) : Host.Outcome State Fault Refusal := .next s

end Sys2Proof.Machine
end

