-- ==== Sys2Proof/Machine/Device.lean ====
section
/-! DEFINITION. Host attachment, security and housekeeping (R439 to R448): links, boot, reset, the secure block and its writes, partition
mode, the clock ratio, throttling, attestation, jobs and their job-wide regions (R215, R286), and the registers that the host reads. -/

namespace Sys2Proof.Machine

/-! ### MSTATUS (R439, R441) -/

def Boot.code : Boot → Nat
  | .reset => 0
  | .rom => 1
  | .verify => 2
  | .booted => 3
  | .failed => 15

/-- MSTATUS (R441). -/
def State.mstatus (s : State) : W64 :=
  w64 (at' 12 4 s.boot.code + at' 11 1 (b2n s.phalt) + at' 10 1 (b2n s.nobackup) + at' 9 1 (b2n s.collstop) + at' 8 1 (b2n s.hot)
    + s.fail.toNat)

/-- MSI-X vector 128 serves changes of MSTATUS: a step that changes it raises the vector (R439). -/
def State.noteStatus (s t : State) : State := if t.mstatus == s.mstatus then t else { t with statIrqs := t.statIrqs + 1 }

/-! ### Links (R375, R390, R440) -/

/-- An uncorrectable error of a link. -/
def State.linkErr (s : State) (bank : Nat) : State := s.logErr bank { uc := true, kind := 3, w2 := Config.syndrome s.stepNo }

/-- At boot a memory port's link trains, and C_p is fixed: rounded down to 256 MiB, at most 1.5 TiB (R440). -/
def execMemoryPortLinkTrain (p cap : Nat) (s : State) : Host.Outcome State Fault Refusal :=
  let c := min portSpan (cap / 0x10000000 * 0x10000000)
  let boots := s.boot == .reset || s.boot == .rom || s.boot == .verify
  .next (if p < 8 && boots && s.caps.getD p 0 == 0 then { s with caps := s.caps.set p c } else s)

/-- A memory port's link goes down after boot: its accesses complete as poison from now on (R440). -/
def execMemoryPortLinkDown (p : Nat) (s : State) : Host.Outcome State Fault Refusal :=
  .next (if p < 8 && s.boot == .booted && s.caps.getD p 0 != 0 && !s.portsDown.contains p then
      { s with portsDown := p :: s.portsDown }.linkErr (672 + p)
    else s)

/-- A Vyivo link goes down (R375, R390). -/
def execVyivoLinkDown (l : Nat) (s : State) : Host.Outcome State Fault Refusal :=
  .next (if l < 16 && !s.linksDown.contains l then { s with linksDown := l :: s.linksDown }.linkErr (656 + l) else s)

/-- The host port's link goes down (R375, R390). -/
def execHostPortLinkDown (s : State) : Host.Outcome State Fault Refusal :=
  .next (if s.hostDown then s else { s with hostDown := true }.linkErr 680)

/-! ### Reset and boot (R8, R441, R442) -/

/-- Module reset: every state takes its reset value and the mask ROM waits in ROM; memory keeps its bytes (R8, R442; log 1). -/
def execModuleReset (s : State) : Host.Outcome State Fault Refusal :=
  .next { State.reset with boot := .rom, mem := s.mem, poison := s.poison, stepNo := s.stepNo }

/-- Power removal: no state is kept (R448). -/
def execPowerRemoval (s : State) : Host.Outcome State Fault Refusal := .next { State.reset with stepNo := s.stepNo }

/-- BOOTGO: a 1 in ROM starts VERIFY (R441, R442). -/
def execBootgo (w : HostW) (s : State) : Host.Outcome State Fault Refusal :=
  .next (if w.w == 1 && s.boot == .rom && hostActs w.via then { s with boot := .verify } else s)

/-- The purser pair as Cimus starts on it: the Module reset column, its first PC, and the checkpoint of its first segment (R7, R442). -/
def purserStart (pc : VA) : Ctx :=
  let x : Ctx := { Ctx.reset with lst := .running, pc := pc }
  { x with seg := { Seg.reset with ckpt := some x.checkpoint } }

/-- A verified image runs: Cimus has every configuration from the signed configuration block (R442, R444). -/
def State.boots (s : State) : State :=
  let m := s.mem
  let clk : BitVec 2 := (Config.imageClkctl m).setWidth 2
  { s with
    boot := .booted
    clkctl := if clk == 3 then s.clkctl else clk
    mid := (Config.imageMid m).setWidth 8
    qtbase := Config.imageQtbase m &&& ~~~63
    unprot := (Config.imagePmode m).getLsbD 0
    purserRoot := Config.purserRoot m
    imgHash := Config.imageHash m
    cfgHash := Config.cfgHash m
    dies := []
    ctxs := Tbl.put s.ctxs purser (purserStart (Config.purserEntry m)) }

/-- The check of the image ends: BOOTED, or FAILED with the reason (R441, R442). -/
def execImageVerifyDone (s : State) : Host.Outcome State Fault Refusal :=
  let f := Config.imageFail s.mem
  .next (if s.boot != .verify then s
    else if f == 0 then s.boots
    else { s with boot := .failed, fail := if f == 1 || f == 2 then f else 3 })

/-! ### Attestation (R443) -/

/-- IDENT: device, stepping, instruction-set revision (R441). -/
def ident : W64 := w64 (0x01000640 + Config.stepping.toNat * 2 ^ 16)

/-- Cimus answers a nonce with a report signed by the identity key, over the hashes of the image and configuration block that booted (R443). -/
def execAttestationRequest (nonce : BitVec 512) (s : State) : Host.Outcome State Fault Refusal :=
  .next (if s.boot == .booted then { s with reports := s.reports ++ [Config.attest nonce s.imgHash s.cfgHash ident] } else s)

/-! ### Heat and clocks (R394, R447, R448) -/

def execThrottlePoint (s : State) : Host.Outcome State Fault Refusal := .next { s with hot := true }
def execHotClear (s : State) : Host.Outcome State Fault Refusal := .next { s with hot := false }
def execThermalTrip (s : State) : Host.Outcome State Fault Refusal := .next { s with trip := true }

/-- A pulse is removed from every member of a timed domain: THROTTLE counts it for the partitions of the launch (R344, R447). -/
def execThrottlePulseRemoval (ctx : Nat) (s : State) : Host.Outcome State Fault Refusal :=
  .next (if (s.ctx ctx).busy && ctx != purser then (s.gangDies ctx).foldl (fun t p => t.count p 0x09 1) s else s)

/-- CLKCTL: a new ratio is asked for; 0b11 is ignored (R394, R444). Until the switch the register reads the ratio in force: the spec does not
say which of the two it reads then, and this is the model's choice (log 21). -/
def State.clkWrite (w : W64) (s : State) : State :=
  if bf w 1 0 == 3 then s else { s with clkNext := some (w.setWidth 2) }

def execClkctlWrite (w : W64) (s : State) : Host.Outcome State Fault Refusal := .next (s.clkWrite w)

/-- The crossing FIFOs have drained: the ratio changes (R394). -/
def execClockRatioSwitch (s : State) : Host.Outcome State Fault Refusal :=
  .next (match s.clkNext with
    | some r => { s with clkctl := r, clkNext := none }
    | none => s)

/-! ### Partition mode and partitions (R344, R444, R445) -/

/-- No job exists on the module (R445). -/
def State.noJob (s : State) : Bool :=
  (s.ctxs.all fun e => e.1 == purser || e.2.lst == .idle) && s.berths.isEmpty && (s.parts.all fun e => e.2.pjob.isNone) &&
    s.groups.isEmpty && s.dies.all fun e => e.2.cmds.all fun c => !c.detached

/-- A partition on a change of mode: counters, EVSEL, region table and retry ring are cleared (R445). -/
def Part.modeChange (t : Part) : Part := { t with ctrs := Part.reset.ctrs, evsel := Part.reset.evsel, regions := [] }

/-- A context's number names another core or pair after a change of mode: none of the lines and translations that the old one filled is its
own (R6, R20). -/
def Ctx.modeChange (x : Ctx) : Ctx := { x with icache := [], tlb := [] }

/-- PMODE changes the mode only while no job exists (R445). The dies and the instruction caches of the pairs start anew in the new layout:
the model's choice (log 8). -/
def State.pmodeSet (w : W64) (s : State) : State :=
  if w.getLsbD 0 == s.unprot || !s.noJob then s
  else
    { s with
      unprot := w.getLsbD 0
      parts := s.parts.map fun e => (e.1, e.2.modeChange)
      ctxs := s.ctxs.map fun e => if e.1 == purser then e else (e.1, e.2.modeChange)
      dies := [] }

def execPmodeWrite (w : W64) (s : State) : Host.Outcome State Fault Refusal := .next (s.pmodeSet w)

/-- A partition's job-wide entries are those of its job (R215, R312). -/
def State.takeWide (s : State) (p : Nat) (j : Option (BitVec 16)) : State :=
  let wide := (j.map s.jobWide).getD []
  s.updPart p fun t => { t with regions := (t.regions.filter fun e => e.1 < 128) ++ wide }

/-- PJOB: a write that changes the value clears the partition's counters and EVSEL registers (R344, R444). -/
def State.pjobSet (w : W64) (s : State) : State :=
  let p := s.partsel.toNat
  let v : BitVec 17 := w.setWidth 17
  if s.nparts ≤ p || (s.part p).pjobw == v then s
  else
    let j : Option (BitVec 16) := if v.getLsbD 16 then some (v.setWidth 16) else none
    (s.takeWide p j).updPart p fun t => { t with pjobw := v, ctrs := Part.reset.ctrs, evsel := Part.reset.evsel }

def execPjobWrite (w : W64) (s : State) : Host.Outcome State Fault Refusal := .next (s.pjobSet w)

/-- The fields of a region entry that have a meaning (R215). -/
def regionMask : BitVec 256 :=
  BitVec.ofNat 256 (at' 239 17 (2 ^ 17 - 1) + at' 128 56 (2 ^ 56 - 1) + at' 64 56 (2 ^ 56 - 1) + (2 ^ 32 - 1))

/-- Cimus sets a job-wide entry in every partition of the job; runs that read it are discarded (R215, R312, R314). -/
def execJobWideRegionSet (job entry : Nat) (e : BitVec 256) (s : State) : Host.Outcome State Fault Refusal :=
  let j := BitVec.ofNat 16 job
  .next (if entry < 128 || 256 ≤ entry then s
    else ((s.jobParts j).foldl (fun t p => t.updPart p fun x => { x with regions := Tbl.set 0 x.regions entry (e &&& regionMask) })
      s).hitVersions j [entry])

/-- Cimus closes a job (R286). -/
def execJobClose (job : Nat) (s : State) : Host.Outcome State Fault Refusal :=
  .next ((s.updJob (BitVec.ofNat 16 job) fun x => { x with closed := true }).settle (s.tasks.length + 1))

/-! ### The secure block (R392, R444) -/

/-- The job and the partition that the secure block selects. -/
def State.selJob (s : State) : Job := s.job s.jobsel
def State.selPart (s : State) : Part := if s.partsel.toNat < s.nparts then s.part s.partsel.toNat else Part.reset
def State.updSelJob (s : State) (f : Job → Job) : State := s.updJob s.jobsel f

/-- The words of an error bank (R392). -/
def ErrBank.word0 (b : ErrBank) : W64 :=
  w64 (at' 63 1 (b2n b.valid) + at' 62 1 (b2n b.uc) + at' 61 1 (b2n b.ovf) + at' 60 1 (b2n b.mc) + at' 56 4 b.kind.toNat
    + at' 40 16 b.count.toNat + at' 33 7 b.part.toNat + at' 32 1 (b2n b.partv))

/-- The bank that ERBSEL names; one that is not listed reads as zero (R392). -/
def State.selBank (s : State) : ErrBank := if bankListed s.erbsel.toNat then s.bank s.erbsel.toNat else {}

/-- A register of the secure block; an address not listed reads as zero (R342, R444). -/
def State.secRd (s : State) (a : Nat) : W64 :=
  if a == 0x400 then s.clkctl.setWidth 64
  else if a == 0x401 then s.mid.setWidth 64
  else if a == 0x402 then s.qtbase
  else if a == 0x403 then w64 (b2n s.unprot)
  else if a == 0x408 then s.jobsel.setWidth 64
  else if a == 0x409 then s.selJob.xroot
  else if a == 0x40A then s.selJob.vitcap.setWidth 64
  else if a == 0x40B then s.selJob.idleto
  else if a == 0x40C then s.selJob.vsdef.setWidth 64
  else if a == 0x40D then s.selJob.dbva.setWidth 64
  else if a == 0x410 then s.partsel.setWidth 64
  else if a == 0x411 then s.selPart.evring.setWidth 64
  else if a == 0x412 then s.selPart.pjobw.setWidth 64
  else if a == 0x4C0 then s.erbsel.setWidth 64
  else if a == 0x4C1 then s.selBank.word0
  else if a == 0x4C2 then s.selBank.w1
  else if a == 0x4C3 then s.selBank.w2
  else if a == 0x4C4 then s.selBank.w3
  else 0

/-- A write of a secure-block register without behaviour of its own: it replaces the value, reserved bits apart (R4, R444). -/
def State.secPlain (s : State) (a : Nat) (w : W64) : State :=
  if a == 0x402 then { s with qtbase := w &&& ~~~63 }
  else if a == 0x408 then { s with jobsel := w.setWidth 16 }
  else if a == 0x409 then s.updSelJob fun j => { j with xroot := w }
  else if a == 0x40A then s.updSelJob fun j => { j with vitcap := w.setWidth 2 }
  else if a == 0x40B then if 10 ≤ w.toNat && w.toNat ≤ 10000 then s.updSelJob fun j => { j with idleto := w } else s
  else if a == 0x40C then s.updSelJob fun j => { j with vsdef := w.setWidth 4 }
  else if a == 0x40D then s.updSelJob fun j => { j with dbva := (w.setWidth 56) &&& ~~~(0x1FFFFF : BitVec 56) }
  else if a == 0x410 then { s with partsel := w.setWidth 7 }
  else if a == 0x411 then
    if s.partsel.toNat < s.nparts then s.updPart s.partsel.toNat fun t => { t with evring := (w.setWidth 56) &&& ~~~(31 : BitVec 56) }
    else s
  else if a == 0x4C0 then { s with erbsel := w.setWidth 10 }
  else s

/-- A write of the secure block, from the secure world (R444). -/
def State.secWr (s : State) (a : Nat) (w : W64) : State :=
  if a == 0x400 then s.clkWrite w
  else if a == 0x403 then s.pmodeSet w
  else if a == 0x412 then s.pjobSet w
  else if a == 0x4C5 then s.erbClear w
  else s.secPlain a w

/-! ### BAR0 (R441, R446) -/

/-- Bytes of capability record i that the spec lays out, and of all records from i on (R446). -/
def capSize (i : Nat) : Nat := if i == 1 then 72 else 8
def capNeed (i : Nat) : Nat := (((upto 5).drop i).map capSize).sum

/-- The BAR0 offset of capability record i: any multiple of 8 behind the record before it, and behind the identity registers, that leaves room
for the records that follow (R446; log 10). -/
def capOff : Nat → Nat
  | 0 => 0x60 + 8 * (Config.capGap 0 % ((0x10000 - 0x60 - capNeed 0) / 8 + 1))
  | i + 1 =>
    let o := capOff i + capSize i
    o + 8 * (Config.capGap (i + 1) % ((0x10000 - o - capNeed (i + 1)) / 8 + 1))

/-- Word w of capability record i: the header, then what the spec lays out of it (R446; log 10). -/
def State.capRd (s : State) (i w : Nat) : W64 :=
  if w == 0 then
    w64 (at' 24 24 (if i == 4 then 0 else capOff (i + 1)) + at' 16 8 (Config.capWord i).toNat + (i + 1))
  else if i == 1 && w ≤ 8 then w64 (s.caps.getD (w - 1) 0)
  else Config.capWord (capOff i + 8 * w)

/-- What the host reads at an offset of BAR0 (R441, R446). R441 gives no width of an access: DESIGN CHOICE for an offset that is no multiple of 8
(log 22): 0 among the identity registers, and in the capability area the whole 8-byte word that holds the byte. -/
def State.bar0 (s : State) (o : Nat) : W64 :=
  if o == 0 then s.mstatus
  else if o == 8 then ident
  else if s.boot != .booted then 0
  else if 0x10 ≤ o && o ≤ 0x48 && o % 8 == 0 then Config.idHash ((o - 0x10) / 8)
  else if o == 0x50 then w64 (capOff 0)
  else
    match (upto 5).find? fun i => capOff i ≤ o && (i == 4 || o < capOff (i + 1)) with
    | some i => if o < 0x60 then 0 else s.capRd i ((o - capOff i) / 8)
    | none => 0

/-- A read of BAR0 by the host; a secure-world one without IDE gets no data (R439). -/
def State.hostRd (s : State) (via : HostAcc) (o : Nat) : Option W64 := if hostActs via then some (s.bar0 o) else none

end Sys2Proof.Machine
end

