-- ==== Sys2Proof/Machine/System.lean ====
section
/-! DEFINITION. The system registers (R342 to R344): SYSRD and SYSWR, the register map of a context, the service block of the purser
pair (R356, R357, R360), and the plain writes of a register (R4). -/

namespace Sys2Proof.Machine

/-! ### The context's own registers (R342 to R344) -/

/-- SHAPE (R343). -/
def State.shape (s : State) (c : Nat) : W64 :=
  let r := (s.ctx c).lrec
  if c == purser then w64 (2 ^ 26)
  else w64 (at' 57 7 (lPart r) + at' 50 7 (lGangBase r) + at' 43 7 (lDCount r) + at' 40 3 (lQCount r) + at' 36 4 (lQMask r).toNat
    + at' 34 2 (lGMode r) + at' 28 6 (lStream r) + at' 27 1 (b2n (lHalf r)))

/-- The address where Cimus maps the doorbell window into the launch's job (R342, R444). -/
def State.dbvaOf (s : State) (c : Nat) : W64 := if c == purser then 0 else ((s.job (lJob (s.ctx c).lrec)).dbva).setWidth 64

/-- An event that the model does not count itself (R344; log 3). -/
def isTiming (ev : BitVec 8) : Bool := 2 ≤ ev.toNat && ev.toNat ≤ 5

/-- Counter n of a partition as a read finds it (R344). -/
def State.ctrRd (s : State) (p n : Nat) : W64 :=
  let t := s.part p
  let v := t.ctrs.getD n 0
  if isTiming (t.evsel.getD n 0) then v + Config.timingEvents s.stepNo n else v

/-- EVSELn takes an event; a reserved one or a reserved bit makes the write ignored (R344). -/
def State.evselWr (s : State) (p n : Nat) (w : W64) : State :=
  if 9 < w.toNat then s
  else s.updPart p fun t =>
    { t with ctrs := t.ctrs.set n (if isTiming (t.evsel.getD n 0) then t.ctrs.getD n 0 + Config.timingEvents s.stepNo n
                                   else t.ctrs.getD n 0)
             evsel := t.evsel.set n (w.setWidth 8) }

/-- The registers outside the privileged blocks; none where the address is outside the map. The purser pair serves no partition: its
counters read as zero (log 18). -/
def State.ownRd (s : State) (c a : Nat) : Option W64 :=
  let x := s.ctx c
  if a == 0 then some (x.rm.setWidth 64)
  else if a == 1 then some (s.shape c)
  else if a == 2 then some (x.bsn.setWidth 64)
  else if a == 3 then some (Config.cyclesAt s.stepNo)
  else if a == 4 then some (Config.timeAt s.stepNo)
  else if a == 5 then some x.dmasks
  else if a == 6 then some (s.dbvaOf c)
  else if 0x100 ≤ a && a < 0x140 then some (if c == purser then 0 else s.ctrRd c (a - 0x100))
  else if 0x140 ≤ a && a < 0x178 then some (if c == purser then 0 else ((s.part c).evsel.getD (a - 0x140) 0).setWidth 64)
  else none

/-- Writes of the registers outside the privileged blocks (R4, R342). -/
def State.ownWr (s : State) (c a : Nat) (w : W64) : State :=
  if a == 0 then s.updCtx c fun x => { x with rm := w.setWidth 2 }
  else if c == purser then s
  else if 0x100 ≤ a && a < 0x138 then s.updPart c fun t => { t with ctrs := t.ctrs.set (a - 0x100) w }
  else if 0x140 ≤ a && a < 0x178 then s.evselWr c (a - 0x140) w
  else s

/-! ### The service block (R356, R357, R360) -/

/-- 64 bits of a predicate over contexts or partitions that exist. -/
def State.bits64 (s : State) (base : Nat) (f : Nat → Bool) : W64 :=
  w64 ((upto 64).foldl (fun n i => n + if base + i < s.nparts && f (base + i) then 2 ^ i else 0) 0)

/-- FCR0 (R357). -/
def Ctx.fcr0 (x : Ctx) : W64 :=
  let f := x.fcr
  w64 (at' 63 1 (b2n x.frozen) + at' 62 1 (b2n x.swapped) + at' 61 1 (b2n f.dief) + at' 55 6 f.die + at' 53 2 f.quad + at' 50 3 f.slot
    + at' 42 8 f.cmask.toNat + at' 34 8 f.detail.toNat + at' 16 16 f.ucode.toNat + f.cause.toNat)

/-- KIND, AOP, DATA and CMP of a retry entry (R360). -/
def LOp.ring (o : LOp) : Nat × Nat × W64 × W64 :=
  match o with
  | .load => (0, 0, 0, 0)
  | .store v => (1, 0, v, 0)
  | .amo f b c => (2, AOp.code f, b, if f == .cas then c else 0)

/-- A retry entry as its record (R360). -/
def RetryE.word (e : RetryE) : BitVec 256 :=
  let a := e.acc
  let (k, f, v, c) := a.op.ring
  BitVec.ofNat 256
    (2 ^ 255 + at' 253 2 k + at' 252 1 (b2n a.dev) + at' 250 2 (Nat.log2 a.size) + at' 246 4 f + at' 244 2 (a.lane / 1024)
      + at' 234 10 a.lane + at' 225 9 (a.dst.headD 0) + at' 193 32 a.bsn.toNat + at' 185 8 e.walk.toNat + at' 128 56 a.va
      + at' 64 64 (v.toNat % 2 ^ (8 * a.size)) + c.toNat)

/-- RRSTAT: held lanes, valid entries, and the index of the oldest (R356). -/
def Die.rrstat (y : Die) : W64 :=
  let old := y.ring.foldl (fun (a : Option (Nat × RetryE)) e =>
    match a with
    | some b => if e.2.acc.sn < b.2.acc.sn then some e else a
    | none => some e) none
  w64 (at' 32 16 (min 65535 y.heldLanes.length) + at' 16 13 y.ring.length + at' 0 12 ((old.map (·.1)).getD 0))

/-- LMASKi (R356). -/
def Fcr.lmaskW (f : Fcr) (i : Nat) : W64 := w64 ((upto 64).foldl (fun n b => n + if f.lmask.contains (64 * i + b) then 2 ^ b else 0) 0)

/-- The registers that belong to the partition in SVCSEL.PART (R356, R357). -/
def State.svcSel (s : State) (p a : Nat) : W64 :=
  let x := s.ctx p
  let f := x.fcr
  let y := s.die p
  if a == 0x208 then (x.mbox.map (·.2.1)).getD 0
  else if a == 0x209 then (x.mbox.map (·.2.2)).getD 0
  else if a == 0x210 then x.fcr0
  else if a == 0x211 then f.f.setWidth 64
  else if a == 0x212 then f.addrF.setWidth 64
  else if a == 0x213 then f.g.setWidth 64
  else if a == 0x214 then f.data.setWidth 64
  else if a == 0x215 then w64 (at' 19 13 f.nlane + at' 0 12 f.flane)
  else if a == 0x216 then f.field.setWidth 64
  else if 0x220 ≤ a && a < 0x228 then f.scw.getD (a - 0x220) 0
  else if 0x230 ≤ a && a < 0x234 then
    (match Tbl.get? y.ring (bf s.svcsel 18 7) with
     | some e => w64 (bf e.word (64 * (a - 0x230) + 63) (64 * (a - 0x230)))
     | none => 0)
  else if a == 0x234 then y.rrstat
  else if 0x240 ≤ a && a < 0x280 then f.lmaskW (a - 0x240)
  else 0

/-- A register of the service block; one not listed, a write-only one, or one of a partition that does not exist reads as zero
(R342, R356). -/
def State.svcRd (s : State) (a : Nat) : W64 :=
  if a == 0x200 then s.svcsel
  else if a == 0x201 then s.bits64 0 fun c => (s.ctx c).trappend
  else if a == 0x202 then s.bits64 64 fun c => (s.ctx c).trappend
  else if a == 0x203 then s.bits64 0 s.reqPend
  else if a == 0x204 then s.bits64 64 s.reqPend
  else if a == 0x205 then s.bits64 0 s.rrPend
  else if a == 0x206 then s.bits64 64 s.rrPend
  else if a == 0x2F9 then w64 (b2n s.cmdBusy.isSome + 2 * b2n s.xinvBusy.isSome)
  else
    let p := bf s.svcsel 6 0
    if p < s.nparts then s.svcSel p a else 0

/-- SVCCMD (R367). -/
def State.svcCmd (s : State) (w : W64) : State :=
  let p := bf w 6 0
  let op := bf w 10 8
  if op == 1 then s.svcKill p else if op == 2 then s.svcPreempt p else if op == 3 then s.svcRestore p else s

/-- A write of SVCSEL (R357). -/
def State.svcselWr (s : State) (w : W64) : State := { s with svcsel := w64 (bf w 18 0) }

/-- A write of the service block (R356). -/
def State.svcWr (s : State) (a : Nat) (w : W64) : State :=
  if a == 0x200 then s.svcselWr w
  else if a == 0x201 then s.trapAck false w
  else if a == 0x202 then s.trapAck true w
  else if a == 0x2F8 then s.svcCmd w
  else if a == 0x2FA then s.xinv w
  else s

/-! ### SYSRD, SYSWR and plain writes (R4, R342) -/

def isService (a : Nat) : Bool := 0x200 ≤ a && a < 0x400
def isSecure (a : Nat) : Bool := 0x400 ≤ a && a < 0x500

/-- The cause of a system-register access at step 3 (R325, R342). -/
def State.sysCause (s : State) (a : Nat) : Option (BitVec 16) :=
  if isService a || isSecure a then if s.cur.ctx == purser then none else some 0x000E
  else if (s.ownRd s.cur.ctx a).isNone then some 0x000F else none

/-- The value of a system register as a context reads it. -/
def State.sysGet (s : State) (c a : Nat) : W64 :=
  if isService a then s.svcRd a else if isSecure a then s.secRd a else (s.ownRd c a).getD 0

/-- A write of a system register by a context. -/
def State.sysPut (s : State) (c a : Nat) (w : W64) : State :=
  if isService a then s.svcWr a w else if isSecure a then s.secWr a w else s.ownWr c a w

def execSysrd (xd : Reg) (addr : BitVec 12) (s : State) : Host.Outcome State Fault Refusal :=
  .next (match s.cur.side with
    | .die => s
    | .seq =>
      match s.sysCause addr.toNat with
      | some c => s.takeTrap { cause := c }
      | none => s.setX xd (s.sysGet s.cur.ctx addr.toNat))

def execSyswr (xa : Reg) (addr : BitVec 12) (s : State) : Host.Outcome State Fault Refusal :=
  .next (match s.cur.side with
    | .die => s
    | .seq =>
      match s.sysCause addr.toNat with
      | some c => s.takeTrap { cause := c }
      | none => s.sysPut s.cur.ctx addr.toNat (s.x xa))

/-- A write to a register without behaviour of its own, by the purser pair: it acts by its access code (R4). -/
def execRegisterWrite (addr : BitVec 12) (w : W64) (s : State) : Host.Outcome State Fault Refusal :=
  let a := addr.toNat
  .next (if a == 0x200 then s.svcselWr w else if isService a then s else if isSecure a then s.secPlain a w else s.ownWr purser a w)

end Sys2Proof.Machine
end

