-- ==== Sys2Proof/Machine/Slots.lean ====
section
/-! DEFINITION. The meaning of the instruction in a slot of a bundle, for the slots of a bundle in progress (R15, R140). -/

namespace Sys2Proof.Machine

/-- The state that an outcome leads to. -/
def outState (o : Host.Outcome State Fault Refusal) (s : State) : State :=
  match o with
  | .next t => t
  | _ => s

/-- A slot of the bundle in progress executes its instruction; a step of the machine is no slot. -/
def State.slot (s : State) (i : Instr) : State :=
  match i with
  | .add xd xa xb => outState (execAdd xd xa xb s) s
  | .sub xd xa xb => outState (execSub xd xa xb s) s
  | .mul xd xa xb => outState (execMul xd xa xb s) s
  | .mulh xd xa xb => outState (execMulh xd xa xb s) s
  | .mulhn xd xa xb => outState (execMulhn xd xa xb s) s
  | .div xd xa xb => outState (execDiv xd xa xb s) s
  | .divn xd xa xb => outState (execDivn xd xa xb s) s
  | .rem xd xa xb => outState (execRem xd xa xb s) s
  | .remn xd xa xb => outState (execRemn xd xa xb s) s
  | .and xd xa xb => outState (execAnd xd xa xb s) s
  | .or xd xa xb => outState (execOr xd xa xb s) s
  | .xor xd xa xb => outState (execXor xd xa xb s) s
  | .shl xd xa xb => outState (execShl xd xa xb s) s
  | .shr xd xa xb => outState (execShr xd xa xb s) s
  | .sra xd xa xb => outState (execSra xd xa xb s) s
  | .min xd xa xb => outState (execMin xd xa xb s) s
  | .max xd xa xb => outState (execMax xd xa xb s) s
  | .minn xd xa xb => outState (execMinn xd xa xb s) s
  | .maxn xd xa xb => outState (execMaxn xd xa xb s) s
  | .clz xd xa => outState (execClz xd xa s) s
  | .popc xd xa => outState (execPopc xd xa s) s
  | .addi xd xa imm => outState (execAddi xd xa imm s) s
  | .andi xd xa imm => outState (execAndi xd xa imm s) s
  | .ori xd xa imm => outState (execOri xd xa imm s) s
  | .xori xd xa imm => outState (execXori xd xa imm s) s
  | .shiShl xd xa imm => outState (execShiShl xd xa imm s) s
  | .shiShr xd xa imm => outState (execShiShr xd xa imm s) s
  | .shiSra xd xa imm => outState (execShiSra xd xa imm s) s
  | .li xd imm => outState (execLi xd imm s) s
  | .lih xd imm => outState (execLih xd imm s) s
  | .cmp qd c xa xb => outState (execCmp qd c xa xb s) s
  | .cmpi qd c xa imm => outState (execCmpi qd c xa imm s) s
  | .sel xd q neg xa xb => outState (execSel xd q neg xa xb s) s
  | .movqGet xd qa => outState (execMovqGet xd qa s) s
  | .movqSet qd xa => outState (execMovqSet qd xa s) s
  | .movqGetall xd => outState (execMovqGetall xd s) s
  | .movqSetall xa => outState (execMovqSetall xa s) s
  | .qop f qd qa qb => outState (execQop f qd qa qb s) s
  | .fadd rm xd xa xb => outState (execFadd rm xd xa xb s) s
  | .fsub rm xd xa xb => outState (execFsub rm xd xa xb s) s
  | .fmul rm xd xa xb => outState (execFmul rm xd xa xb s) s
  | .ffma sg rm xd xa xb xc => outState (execFfma sg rm xd xa xb xc s) s
  | .fcmp r qd xa xb => outState (execFcmp r qd xa xb s) s
  | .fcvt k sat rm xd xa => outState (execFcvt k sat rm xd xa s) s
  | .lds sz sx xd xa imm => outState (execLds sz sx xd xa imm s) s
  | .sts sz xs xa imm => outState (execSts sz xs xa imm s) s
  | .ldg sz sx dev xd xa imm => outState (execLdg sz sx dev xd xa imm s) s
  | .stg sz dev xs xa imm => outState (execStg sz dev xs xa imm s) s
  | .amog op four xd xa xb xc => outState (execAmog op four xd xa xb xc s) s
  | .br c xa xb off => outState (execBr c xa xb off s) s
  | .brq q neg off => outState (execBrq q neg off s) s
  | .call xd off => outState (execCall xd off s) s
  | .callR xd xa => outState (execCallR xd xa s) s
  | .jmp off => outState (execJmp off s) s
  | .jmpR xa => outState (execJmpR xa s) s
  | .ret xa => outState (execRet xa s) s
  | .loop xa off => outState (execLoop xa off s) s
  | .exit code => outState (execExit code s) s
  | .vadd a => outState (execVadd a s) s
  | .vsub a => outState (execVsub a s) s
  | .vmul a => outState (execVmul a s) s
  | .vmulh a => outState (execVmulh a s) s
  | .vdiv a => outState (execVdiv a s) s
  | .vmin a => outState (execVmin a s) s
  | .vmax a => outState (execVmax a s) s
  | .vfma a => outState (execVfma a s) s
  | .vfms a => outState (execVfms a s) s
  | .vfnma a => outState (execVfnma a s) s
  | .vadds a => outState (execVadds a s) s
  | .vsubs a => outState (execVsubs a s) s
  | .vabs a => outState (execVabs a s) s
  | .vneg a => outState (execVneg a s) s
  | .vmov a => outState (execVmov a s) s
  | .vand a => outState (execVand a s) s
  | .vor a => outState (execVor a s) s
  | .vxor a => outState (execVxor a s) s
  | .vandn a => outState (execVandn a s) s
  | .vshl a => outState (execVshl a s) s
  | .vshr a => outState (execVshr a s) s
  | .vclz a => outState (execVclz a s) s
  | .vpopc a => outState (execVpopc a s) s
  | .vcmp a => outState (execVcmp a s) s
  | .vsel a => outState (execVsel a s) s
  | .vcvt a => outState (execVcvt a s) s
  | .vrcp a => outState (execVrcp a s) s
  | .vsqrt a => outState (execVsqrt a s) s
  | .vrsq a => outState (execVrsq a s) s
  | .vexp2 a => outState (execVexp2 a s) s
  | .vlog2 a => outState (execVlog2 a s) s
  | .vtanh a => outState (execVtanh a s) s
  | .vshuf a => outState (execVshuf a s) s
  | .vrotr a => outState (execVrotr a s) s
  | .vrotc a => outState (execVrotc a s) s
  | .vbcr a => outState (execVbcr a s) s
  | .vbcc a => outState (execVbcc a s) s
  | .vredr a => outState (execVredr a s) s
  | .vredc a => outState (execVredc a s) s
  | .vidx a => outState (execVidx a s) s
  | .pand a => outState (execPand a s) s
  | .por a => outState (execPor a s) s
  | .pxor a => outState (execPxor a s) s
  | .pnot a => outState (execPnot a s) s
  | .vladd a => outState (execVladd a s) s
  | .vlrnd a => outState (execVlrnd a s) s
  | .vlclr pg vd => outState (execVlclr pg vd s) s
  | .vcond a => outState (execVcond a s) s
  | .vview vw xa => outState (execVview vw xa s) s
  | .mlds a => outState (execMlds a s) s
  | .mswap => outState (execMswap s) s
  | .mzero => outState (execMzero s) s
  | .mmul a => outState (execMmul a s) s
  | .vld a => outState (execVld a s) s
  | .vldx a => outState (execVldx a s) s
  | .vldg a => outState (execVldg a s) s
  | .vpref a => outState (execVpref a s) s
  | .vldt a => outState (execVldt a s) s
  | .fill a => outState (execFill a s) s
  | .vst a => outState (execVst a s) s
  | .vstx a => outState (execVstx a s) s
  | .vstg a => outState (execVstg a s) s
  | .vamo a => outState (execVamo a s) s
  | .spill a => outState (execSpill a s) s
  | .cdesc ds slma => outState (execCdesc ds slma s) s
  | .ccopyIn a => outState (execCcopyIn a s) s
  | .ccopyOut a => outState (execCcopyOut a s) s
  | .cmcast a => outState (execCmcast a s) s
  | .tdef tn offs size swz keep => outState (execTdef tn offs size swz keep s) s
  | .trel tn => outState (execTrel tn s) s
  | .tcfg tn swz => outState (execTcfg tn swz s) s
  | .cflush tout tin inv => outState (execCflush tout tin inv s) s
  | .csplit nw => outState (execCsplit nw s) s
  | .cstat dc k => outState (execCstat dc k s) s
  | .twait tin => outState (execTwait tin s) s
  | .bacq shared region => outState (execBacq shared region s) s
  | .brel region => outState (execBrel region s) s
  | .fence sc => outState (execFence sc s) s
  | .sigadd sc xd xa xb => outState (execSigadd sc xd xa xb s) s
  | .sigst sc xa xb => outState (execSigst sc xa xb s) s
  | .sigwait c sc xd xa xb => outState (execSigwait c sc xd xa xb s) s
  | .enq xd xa slma => outState (execEnq xd xa slma s) s
  | .yield => outState (execYield s) s
  | .trap code => outState (execTrap code s) s
  | .mbox xd xa xb => outState (execMbox xd xa xb s) s
  | .mboxReply xa xb => outState (execMboxReply xa xb s) s
  | .eretReplay xd xa => outState (execEretReplay xd xa s) s
  | .eretSkip xd xa => outState (execEretSkip xd xa s) s
  | .rrfillRetry xd xa => outState (execRrfillRetry xd xa s) s
  | .rrfillData xd xa xb => outState (execRrfillData xd xa xb s) s
  | .felog sel clr xd xe => outState (execFelog sel clr xd xe s) s
  | .mstat sel clr xd => outState (execMstat sel clr xd s) s
  | .sysrd xd addr => outState (execSysrd xd addr s) s
  | .syswr xa addr => outState (execSyswr xa addr s) s
  | .rdv tag => outState (execRdv tag s) s
  | .red op xd dc => outState (execRed op xd dc s) s
  | .mask a => outState (execMask a s) s
  | .perm a => outState (execPerm a s) s
  | .permVault a => outState (execPermVault a s) s
  | .coll xd tout tin slma => outState (execColl xd tout tin slma s) s
  | .cwait xd xa => outState (execCwait xd xa s) s
  | .cwaitTest xd xa => outState (execCwaitTest xd xa s) s
  | .ccancel xd xa => outState (execCcancel xd xa s) s
  | _ => s

end Sys2Proof.Machine
end

