-- ==== Sys2Proof/Machine/Uses.lean ====
section
/-! DEFINITION. What the slots of a die bundle read and write, and the interlocks of a die (R76, R133, R135 to R137, R185 to R188, R359). -/

namespace Sys2Proof.Machine

/-- Physical slices, predicates and dc registers that slots read and write, and the lane predicate that gates a slot. -/
structure Use where
  pg : PIdx := 0
  rs : BitVec 512 := 0
  ws : BitVec 512 := 0
  rp : BitVec 16 := 0
  wp : BitVec 16 := 0
  rd : BitVec 4 := 0
  wd : BitVec 4 := 0
  deriving DecidableEq, Repr

def Use.join (a b : Use) : Use :=
  { rs := a.rs ||| b.rs, ws := a.ws ||| b.ws, rp := a.rp ||| b.rp, wp := a.wp ||| b.wp, rd := a.rd ||| b.rd, wd := a.wd ||| b.wd }

/-! ### Operands -/

/-- The physical slices of a slice operand. -/
def DieRegs.dstSet (r : DieRegs) (d : Dst) : BitVec 512 := sliceSet (r.physD d)

def DieRegs.opSet (r : DieRegs) : Opnd → BitVec 512
  | .sl d => r.dstSet d
  | _ => 0

/-- The slices of a long accumulator (R76). -/
def DieRegs.laccSet (r : DieRegs) (st : BitVec 9) : BitVec 512 := sliceSet (r.phys st.toNat 84)

/-- A predicate as a mask, renamed; p0 needs no interlock (R124). -/
def DieRegs.pSet (r : DieRegs) (p : PIdx) : BitVec 16 := if p == 0 then 0 else BitVec.ofNat 16 (2 ^ renP r.prb p)

def dcSet (d : BitVec 2) : BitVec 4 := BitVec.ofNat 4 (2 ^ d.toNat)

def DieRegs.useV1 (r : DieRegs) (a : V1) : Use := { rs := r.opSet a.va, ws := r.dstSet a.vd, pg := a.pg, rp := r.pSet a.pg }
def DieRegs.useV2 (r : DieRegs) (a : V2) : Use :=
  { rs := r.opSet a.va ||| r.opSet a.vb, ws := r.dstSet a.vd, pg := a.pg, rp := r.pSet a.pg }
def DieRegs.useV3 (r : DieRegs) (a : V3) : Use :=
  { rs := r.opSet a.va ||| r.opSet a.vb ||| r.opSet a.vc, ws := r.dstSet a.vd, pg := a.pg, rp := r.pSet a.pg }
def DieRegs.useAx (r : DieRegs) (a : VAxA) : Use := { rs := r.opSet a.va, ws := r.dstSet a.vd, pg := a.pg, rp := r.pSet a.pg }
def DieRegs.useRed (r : DieRegs) (a : VRedA) : Use := { rs := r.opSet a.va, ws := r.dstSet a.vd, pg := a.pg, rp := r.pSet a.pg }
def DieRegs.useP2 (r : DieRegs) (a : P2) : Use := { pg := a.pg, rp := r.pSet a.pg ||| r.pSet a.pa ||| r.pSet a.pb, wp := r.pSet a.pd }
def DieRegs.useLoad (r : DieRegs) (a : LMem) : Use := { rs := r.opSet a.vi, ws := r.dstSet a.vd, pg := a.pg, rp := r.pSet a.pg }
def DieRegs.useStore (r : DieRegs) (a : LMem) : Use := { rs := r.opSet a.vi ||| r.dstSet a.vd, pg := a.pg, rp := r.pSet a.pg }

/-- The slices of a SPILL, FILL or PERM. -/
def DieRegs.runSet (r : DieRegs) (ss nsm1 : BitVec 9) : BitVec 512 := sliceSet (r.phys ss.toNat (nsm1.toNat + 1))

/-- The slices that a VAMO reads: its operand, the compare value behind it, and its index (R232). -/
def DieRegs.vamoSet (r : DieRegs) (a : VAmoA) : BitVec 512 :=
  r.opSet a.vi ||| r.dstSet a.vs |||
    (if a.op == .cas then sliceSet (r.phys (a.vs.start.toNat + a.vs.w.slices) a.vs.w.slices) else 0)

/-- The MMUL of an instruction with the slices of its rows (R185). -/
def mmulShape (r : DieRegs) (a : MmulA) (j : Nat) : MMulOp :=
  let rows := a.rows.toNat + 1
  let va := r.views.getD a.av.toNat 0
  let vc := r.views.getD a.cv.toNat 0
  let gs := upto ((rows + 7) / 8)
  { bsn := 0, addr := 0, tout := a.tout, aty := a.aty, add := a.add, rows := rows, qm := r.qmask,
    aSl := gs.map fun g => r.physWrap (aName va a.aty j g) (ATy.slices a.aty)
    cSl := gs.map fun g => r.physWrap (cName vc j g) 8
    planes := [], fills := [], latched := [], next := 0, clip := [], bad := [], hurt := [], live := [] }

/-- What an MMUL reads and writes (R187). -/
def MMulOp.use (o : MMulOp) : Use := { rs := o.reads ||| (if o.add then o.writes else 0), ws := o.writes }

/-- What a slot other than an MMUL reads and writes. -/
def DieRegs.use (r : DieRegs) : Instr → Use
  | .vadd a => r.useV2 a
  | .vsub a => r.useV2 a
  | .vmul a => r.useV2 a
  | .vmulh a => r.useV2 a
  | .vdiv a => r.useV2 a
  | .vmin a => r.useV2 a
  | .vmax a => r.useV2 a
  | .vfma a => r.useV3 a
  | .vfms a => r.useV3 a
  | .vfnma a => r.useV3 a
  | .vadds a => r.useV2 a
  | .vsubs a => r.useV2 a
  | .vabs a => r.useV1 a
  | .vneg a => r.useV1 a
  | .vmov a => r.useV1 a
  | .vand a => r.useV2 a
  | .vor a => r.useV2 a
  | .vxor a => r.useV2 a
  | .vandn a => r.useV2 a
  | .vshl a => r.useV2 a
  | .vshr a => r.useV2 a
  | .vclz a => r.useV1 a
  | .vpopc a => r.useV1 a
  | .vcmp a => { rs := r.opSet a.va ||| r.opSet a.vb, pg := a.pg, rp := r.pSet a.pg, wp := r.pSet a.pd }
  | .vsel a => { rs := r.opSet a.va ||| r.opSet a.vb, ws := r.dstSet a.vd, pg := a.pg, rp := r.pSet a.pg ||| r.pSet a.ps }
  | .vcvt a => { rs := r.opSet a.va, ws := r.dstSet a.vd, pg := a.pg, rp := r.pSet a.pg }
  | .vrcp a => r.useV1 a
  | .vsqrt a => r.useV1 a
  | .vrsq a => r.useV1 a
  | .vexp2 a => r.useV1 a
  | .vlog2 a => r.useV1 a
  | .vtanh a => r.useV1 a
  | .vshuf a => r.useV2 a
  | .vrotr a => r.useAx a
  | .vrotc a => r.useAx a
  | .vbcr a => r.useAx a
  | .vbcc a => r.useAx a
  | .vredr a => r.useRed a
  | .vredc a => r.useRed a
  | .vidx a => { ws := r.dstSet a.vd, pg := a.pg, rp := r.pSet a.pg ||| r.pSet a.pa }
  | .pand a => r.useP2 a
  | .por a => r.useP2 a
  | .pxor a => r.useP2 a
  | .pnot a => { pg := a.pg, rp := r.pSet a.pg ||| r.pSet a.pa, wp := r.pSet a.pd }
  | .vladd a =>
    { rs := r.laccSet a.va ||| (match a.src with
        | .val _ o => r.opSet o
        | .lacc st => r.laccSet st)
      ws := r.laccSet a.vd
      pg := a.pg
      rp := r.pSet a.pg }
  | .vlrnd a => { rs := r.laccSet a.va, ws := r.dstSet a.vd, pg := a.pg, rp := r.pSet a.pg }
  | .vlclr pg vd => { ws := r.laccSet vd, pg := pg, rp := r.pSet pg }
  | .vcond a => { rs := r.opSet a.va, pg := a.pg, rp := r.pSet a.pg, wd := dcSet a.dc }
  | .vld a => r.useLoad a
  | .vldx a => r.useLoad a
  | .vldg a => r.useLoad a
  | .vpref a => { rs := r.opSet a.vi, pg := a.pg, rp := r.pSet a.pg }
  | .vldt a => { rs := r.opSet a.vi, ws := sliceSet (r.phys a.start.toNat 4), pg := a.pg, rp := r.pSet a.pg }
  | .fill a => { ws := r.runSet a.ss a.nsm1, pg := a.pg, rp := r.pSet a.pg }
  | .vst a => r.useStore a
  | .vstx a => r.useStore a
  | .vstg a => r.useStore a
  | .vamo a => { rs := r.vamoSet a, ws := r.dstSet a.vd, pg := a.pg, rp := r.pSet a.pg }
  | .spill a => { rs := r.runSet a.ss a.nsm1, pg := a.pg, rp := r.pSet a.pg }
  | .cstat dc _ => { wd := dcSet dc }
  | .red _ _ dc => { rd := dcSet dc }
  | .perm a => { rs := r.runSet a.ss a.nsm1, ws := r.runSet a.ss a.nsm1 }
  | _ => {}

/-- PASS of a packet (R190). -/
def Packet.j (p : Packet) : Nat := if p.rep then p.pass else 0

/-- The MMUL of a list of slots. -/
def mmulOf (r : DieRegs) (p : Packet) (l : List (Nat × Instr)) : Option MMulOp :=
  l.findSome? fun e =>
    match e.2 with
    | .mmul a =>
      if mviewOk a.aty (r.views.getD a.av.toNat 0) (r.views.getD a.cv.toNat 0) then some (mmulShape r a p.j) else none
    | _ => none

/-- What the slots but an MMUL use together. -/
def useAll (r : DieRegs) (l : List (Nat × Instr)) : Use := l.foldl (fun u e => u.join (r.use e.2)) {}

/-! ### Units under SEC-DED (R375) -/

/-- The tokens that a slot of a die reads: those it consumes, and the one it produces (R177, R259, R327). -/
def tokReads : Instr → List Tok
  | .mlds a => a.tout :: Toks.named a.tin
  | .mmul a => a.tout :: Toks.named a.tin
  | .ccopyIn a => a.tout :: Toks.named a.tin
  | .ccopyOut a => a.tout :: Toks.named a.tin
  | .cmcast a => a.tout :: a.t0 :: [a.t1]
  | .cflush t tin _ => t :: Toks.named tin
  | .permVault a => [a.tout]
  | .coll _ t tin _ => t :: Toks.named tin
  | .twait tin => Toks.named tin
  | _ => []

/-- Whether a slot reads the entry of a tile. -/
def tileRead (t : Nat) : Instr → Bool
  | .mlds a => a.tw.toNat == t
  | .vldt a => a.tn.toNat == t
  | .ccopyIn a => a.tn.toNat == t
  | .ccopyOut a => a.tn.toNat == t
  | .cmcast a => a.tn.toNat == t
  | .tdef tn _ _ _ _ => tn.toNat == t
  | .trel tn => tn.toNat == t
  | .tcfg tn _ => tn.toNat == t
  | .csplit _ => true
  | .cstat _ (.tile tn) => tn.toNat == t
  | _ => false

/-- Whether a slot reads a descriptor slot. -/
def descRead (d : Nat) : Instr → Bool
  | .ccopyIn a => a.ds.toNat == d
  | .ccopyOut a => a.ds.toNat == d
  | .cmcast a => a.ds.toNat == d
  | .cstat _ (.desc n) => n.toNat == d
  | _ => false

/-- A slot that names slices goes through the views; an MMUL reads two of them. -/
def viewsRead (r : DieRegs) (l : List (Nat × Instr)) : Bool :=
  l.any fun e => e.1 == 3 || (r.use e.2).rs ||| (r.use e.2).ws != 0

/-- The units with an uncorrectable error that the slots of a bundle read (R375, R381). -/
def Die.unitReads (y : Die) (r : DieRegs) (l : List (Nat × Instr)) : List DieUnit :=
  y.bad.filter fun u => match u with
    | .pred lane p => r.on lane && (useAll r l).rp.getLsbD p
    | .view _ => viewsRead r l
    | .dc n => (useAll r l).rd.getLsbD n
    | .tok n => l.any fun e => (tokReads e.2).any (·.toNat == n)
    | .tile n => l.any fun e => tileRead n e.2
    | .desc n => l.any fun e => descRead n e.2

/-! ### Interlocks (R136, R137, R187, R188, R359) -/

/-- A result in flight holds a use back. -/
def Flight.holds (f : Flight) (qm : BitVec 4) (u : Use) : Bool :=
  (f.qm &&& qm != 0 && (f.ws &&& (u.rs ||| u.ws) != 0 || f.pw &&& (u.rp ||| u.wp) != 0)) ||
    f.dcs.any fun e => (u.rd ||| u.wd).getLsbD e.1

def Resv.holds (f : Resv) (qm : BitVec 4) (u : Use) : Bool := f.qm &&& qm != 0 && f.ws &&& (u.rs ||| u.ws) != 0

/-- An MMUL in flight holds a use back: its ACC slices, and its A slices while rows have still to enter. -/
def MMulOp.holds (o : MMulOp) (qm : BitVec 4) (u : Use) : Bool :=
  o.qm &&& qm != 0 &&
    (o.writes &&& (u.rs ||| u.ws) != 0 || (decide (o.latched.length < o.rows) && o.reads &&& u.ws != 0))

/-- An earlier MMUL holds a later one back (R187, R188): until its last row has entered, and unless the later one follows it, by its
slices. -/
def MMulOp.holdsM (e o : MMulOp) : Bool :=
  e.qm &&& o.qm != 0 &&
    (decide (e.latched.length < e.rows) ||
      (if o.follows e then e.writes &&& o.reads != 0 else e.writes &&& (o.use.rs ||| o.use.ws) != 0))

/-- Pending marks hold every bundle that reads or writes their slices (R359). -/
def Die.marked (y : Die) (u : Use) : Bool := y.marks.any fun m => m.2 &&& (u.rs ||| u.ws) != 0

/-- The slots of a packet meet an interlock of their die: `l` are the slots that issue. -/
def Die.interlocked (y : Die) (r : DieRegs) (p : Packet) (l : List (Nat × Instr)) : Bool :=
  let u := useAll r l
  let m := mmulOf r p l
  let um := (m.map (·.use)).getD {}
  let all := u.join um
  let qm := r.qmask
  y.flights.any (fun f => f.holds qm all) || y.resv.any (fun f => f.holds qm all) || y.marked all ||
    (y.permW.any fun f => f.holds qm all) || (y.mmuls.any fun o => o.holds qm u) ||
    (match m with
     | some o => y.mmuls.any fun e => e.holdsM o
     | none => false)

end Sys2Proof.Machine
end

