-- ==== Sys2Proof/Machine/Pipe.lean ====
section
/-! DEFINITION. The decode queue and the issue of bundles at a die (R139, R140, R144 to R146, R352, R355, R386, R449), parity repair
(R379, R380), the lockstep of PERM (R409 to R411), the arrival of packets and the return of credits. -/

namespace Sys2Proof.Machine

/-! ### The slots of a bundle at a die (R70, R71, R140) -/

/-- A bundle enters the issue of a die: its slots read these registers, and the tokens and tiles as they stand (R70). -/
def State.enterDie (s : State) (d : Nat) (p : Packet) (src : DieRegs) (perm : Option (List Nat)) : State :=
  { s with
    cur :=
      { Cur.reset with
        ctx := (s.driver d).getD 0
        die := d
        side := .die
        pkt := some p
        src := some src
        toks0 := some (s.die d).toks
        tiles0 := some (s.die d).tiles
        perm := perm } }

/-- The slots execute in slot order. -/
def State.runSlots (s : State) (l : List (Nat × Instr)) : State :=
  l.foldl (fun t e => ({ t with cur := { t.cur with slot := e.1 } }).slot e.2) s

/-- The slices and predicates of two lists of writes together, lane by lane. -/
def orMasks : List LaneW → List LaneW → List LaneW
  | a :: as, b :: bs => { a with m := a.m ||| b.m, pm := a.pm ||| b.pm } :: orMasks as bs
  | as, [] => as
  | [], bs => bs

/-- What the slots above k of a bundle write, by lane. -/
def above (cl : List (Nat × List LaneW)) (k : Nat) : List LaneW :=
  (cl.filter fun c => decide (k < c.1)).foldl (fun a c => orMasks a c.2) []

/-- Writes without those that a higher slot makes (R71). -/
def clipLanes : List LaneW → List LaneW → List LaneW
  | w :: ws, a :: as => { w with m := w.m &&& ~~~a.m, pm := w.pm &&& ~~~a.pm } :: clipLanes ws as
  | ws, _ => ws

/-- The dc registers that the slots above k of a bundle write. -/
def dcsAbove (fs : List Flight) (bsn : BitVec 48) (k : Nat) : List Nat :=
  (fs.filter fun f => f.bsn == bsn && decide (k < f.slot)).flatMap fun f => f.dcs.map (·.1)

/-- Where two slots of a bundle write the same unit, the higher one's write stands, whenever each occurs (R71). -/
def Die.resolve (y : Die) (bsn : BitVec 48) (cl : List (Nat × List LaneW)) : Die :=
  { y with
    flights := y.flights.map fun f =>
      if f.bsn == bsn then
        { f with lanes := clipLanes f.lanes (above cl f.slot)
                 dcs := f.dcs.filter fun e => !(dcsAbove y.flights bsn f.slot).contains e.1 }
      else f
    gq := y.gq.map fun a => if a.bsn == bsn then { a with keep := a.keep &&& ~~~((above cl a.slot).getD a.lane {}).m } else a
    rq := y.rq.map fun a => if a.bsn == bsn then { a with keep := a.keep &&& ~~~((above cl a.slot).getD a.lane {}).m } else a
    mmuls := y.mmuls.map fun o => if o.bsn == bsn then { o with clip := (above cl 3).map (·.m) } else o }

/-- A set of slices as a mask over a lane. -/
def laneMask (ws : BitVec 512) : BitVec 2048 := BitVec.ofNat 2048 ((bitsOf ws).foldl (fun n p => n + 15 * 2 ^ (4 * p)) 0)

/-- What a slot that has completed wrote, by lane: a replay leaves it standing (R71, R355). -/
def slotClaims (r : DieRegs) (p : Packet) (e : Nat × Instr) : List LaneW :=
  match mmulOf r p [e] with
  | some o => o.claims r.lanes.length
  | none =>
    let u := r.use e.2
    let m := laneMask u.ws
    r.lanes.mapIdx fun pos l => if r.on pos && r.predAt u.pg l then { m := m, pm := u.wp } else {}

/-- The claims of the completed slots of a bundle that is done again. -/
def doneClaims (r : DieRegs) (p : Packet) (m : BitVec 8) : List (Nat × List LaneW) :=
  (p.slots.filter fun e => m.getLsbD e.1).map fun e => (e.1, slotClaims r p e)

/-! ### What the reads of a bundle meet (R375, R380, R381) -/

/-- The bad slices that the slots of a bundle read as they issue; an MMUL's rows read theirs later (R382). -/
def Die.badReads (y : Die) (r : DieRegs) (l : List (Nat × Instr)) : List (Nat × Nat) :=
  if y.parity.isEmpty then [] else y.parity.filter fun e => (useAll r l).rs.getLsbD e.2 && r.on e.1

/-- Those that cannot be repaired. -/
def Die.lostReads (y : Die) (r : DieRegs) (l : List (Nat × Instr)) : List (Nat × Nat) :=
  (y.badReads r l).filter fun e => !y.repairable e

/-- The uncorrectable errors that the bundle at a die's queue head reads, by bank. -/
def State.headErrs (s : State) (d : Nat) (p : Packet) : List (Nat × ErrIn) :=
  let y := s.die d
  let r := y.regs.rotate p.rotn.toNat
  (y.lostReads r p.slots).map (fun e => s.sliceErr d true p.bsn e.1 e) ++ (y.unitReads r p.slots).map fun u =>
    (s.unitBank d u, { uc := true, kind := 2, w2 := Config.syndrome s.stepNo, w3 := p.bsn.setWidth 64 })

/-- The bundle at a die's queue head would consume an error. -/
def State.headBad (s : State) (d : Nat) (p : Packet) : Bool := !(s.headErrs d p).isEmpty

/-- The bad slices that the bundle at a die's queue head reads and that can be repaired. -/
def State.headFix (s : State) (d : Nat) (p : Packet) : List (Nat × Nat) :=
  let y := s.die d
  (y.badReads (y.regs.rotate p.rotn.toNat) p.slots).filter y.repairable

/-- The bundle consumes what its reads meet: what can be repaired is, and all of it is recorded (R380, R381, R391). -/
def State.headConsume (s : State) (d : Nat) (p : Packet) : State :=
  let es := s.headErrs d p
  let fix := s.headFix d p
  match s.driver d with
  | some c =>
    (s.updDie d fun y => y.repair fix).consumeAll c [d] ((es.head?.map (·.1)).getD 0)
      (es ++ fix.map fun e => s.sliceErr d false 0 e.1 e) p.bsn false
  | none => s

/-! ### Issue (R140, R145, R384) -/

/-- The driver of a die is stopped, saved or halted, or a rewind holds the die (R352, R370, R386, R387). -/
def State.noIssue (s : State) (d : Nat) : Bool :=
  match s.driver d with
  | none => true
  | some c =>
    let x := s.ctx c
    x.swapped || x.saved || x.mcheck ||
      x.seg.rewind.any fun r => r.faulted.contains d && !r.restored.contains d

/-- TWAIT, a FENCE of die scope, a BACQ or a closed segment holds the die's next bundle (R256, R264, R327, R384). -/
def Die.held (y : Die) : Bool :=
  y.stopped || y.twait.any y.pend || (y.fence.any fun l => !y.fenceDone l) || y.bacq.isSome || y.commitWait

/-- An entry of the queue is free again: its credit goes back (R139). -/
def State.freeEntry (s : State) (d : Nat) : State :=
  let s1 := s.updDie d fun y => { y with queue := y.queue.drop 1, permHeld := false }
  match s.driver d with
  | some c => s1.updCtx c fun x => { x with credits := x.credits ++ [d] }
  | none => s1

/-- The waits that have ended are forgotten. -/
def Die.unheld (y : Die) : Die := { y with twait := [], fence := none }

/-- The replay queue takes a bundle (R379). -/
def Die.pushReplay (y : Die) (p : Packet) (src : DieRegs) : Die :=
  let q := y.replayQ ++ [{ pkt := p, src := src, pgs := p.slots.map fun e => (e.1, (src.use e.2).pg), data := [] }]
  { y with replayQ := q.drop (q.length - 8) }

/-- The completion mask of a bundle that has faulted goes into its fault and into what a replay does (R352, R355). -/
def setMask (m : BitVec 8) (bsn : BitVec 48) : Redo → Redo
  | .slots p src k => if p.bsn == bsn then .slots p src m else .slots p src k
  | r => r

def Die.maskFault (y : Die) (p : Packet) (m : BitVec 8) : Die :=
  { y with
    fault := y.fault.map fun f => if f.bsn == p.bsn then { f with cmask := m, redo := setMask m p.bsn f.redo } else f
    redo := y.redo.map (setMask m p.bsn) }

/-- The slots of a bundle whose token a higher slot of it, none of the failed ones, produces too (R71). -/
def Packet.muted (p : Packet) (failed : List Nat) : List Nat :=
  (p.slots.filter fun e => (toutOf e.2).isSome &&
    p.slots.any fun k => decide (e.1 < k.1) && !failed.contains k.1 && toutOf k.2 == toutOf e.2).map (·.1)

/-- The completion of those slots does not write the token (R71). -/
def Die.mute (y : Die) (bsn : BitVec 48) (l : List Nat) : Die :=
  { y with mutes := l.foldl (fun m k => addOnce (bsn, k) m) y.mutes }

/-- The slots of a bundle have run: their writes are resolved, and the bundle is complete, or its fault keeps what is left. `again`: they are
what a resume left to do, of a bundle that the replay queue holds already. -/
def State.finishIssue (s : State) (d : Nat) (p : Packet) (src : DieRegs) (before : List (Nat × List LaneW)) (again : Bool := false) : State :=
  let m := s.cur.failed.foldl dropSlot p.present
  let s1 := s.updDie d fun y =>
    let z := y.resolve p.bsn (s.cur.claimed ++ before)
    (if again then z else z.pushReplay p src).mute p.bsn (p.muted s.cur.failed)
  if s.cur.failed.isEmpty then s1.updDie d fun y => y.issued p else s1.updDie d fun y => y.maskFault p m

/-- Issues some slots of a bundle at an enabled die; none while an interlock or a slot holds the whole bundle back. -/
def State.tryIssue (t : State) (d : Nat) (p : Packet) (src : DieRegs) (l : List (Nat × Instr)) (before : List (Nat × List LaneW))
    (perm : Option (List Nat)) (again : Bool := false) : Option State :=
  if (t.die d).interlocked src p l then none
  else
    let u := (t.enterDie d p src perm).runSlots l
    if u.cur.stalled then none else some (u.finishIssue d p src before again)

/-- A disabled die treats a bundle as empty, but for a MASK and the report of an operation that gathers them; where the operation covers
accesses, the earlier ones of the die are covered still (R145, R406, R407). -/
def State.emptyIssue (s : State) (d : Nat) (p : Packet) (src : DieRegs) : State :=
  let s1 := s.enterDie d p src none
  let s2 := match p.slots.find? (·.1 == 7) with
    | some (_, .mask a) => s1.runSlots [(7, .mask a)]
    | some (_, .red _ _ _) | some (_, .felog _ _ _ _) | some (_, .mstat _ _ _) => s1.report { s1.rep false 0 0 [] with limit := 0 }
    | _ => s1.report (s1.rep false 0 0 [])
  (s2.finishIssue d p src []).updDie d fun y => { y with commitOff := p.rv }

/-- The registers of a die with the packet's rotation steps (R449). -/
def Die.turned (y : Die) (p : Packet) : DieRegs := y.regs.rotate p.rotn.toNat

/-- A packet holds a PERM. -/
def Packet.isPerm (p : Packet) : Bool := p.slots.any fun e => match e.2 with | .perm _ => true | .permVault _ => true | _ => false

/-- The packet at the head of the queue leaves it, its rotation steps applied. -/
def State.takeHead (s : State) (d : Nat) (p : Packet) : State :=
  (s.freeEntry d).updDie d fun y => { y.unheld with regs := y.turned p }

/-- A bundle that waits at a die: a speculative run that it holds back for the claim alone is STALLED (R309, R319). `f` tries to issue it. -/
def State.stalledDie (s : State) (d : Nat) (f : State → Option State) : State :=
  match s.driver d with
  | some c =>
    if (s.ctx c).isSpec && (f (s.updCtx c fun x => { x with spec := none })).isSome then s.noteStall c else s
  | none => s

/-- The bundle at the head of an enabled die's queue issues: once no interlock holds it, its reads check parity and its slots run (R136,
R140, R380). A bundle that holds a PERM is held for its lockstep once it could issue (R409). -/
def State.issueHead (s : State) (d : Nat) (p : Packet) (perm : Option (List Nat)) : State :=
  let y := s.die d
  let src := y.turned p
  if ((s.takeHead d p).die d).interlocked src p p.slots then s
  else if s.headBad d p then s.headConsume d p
  else
    let s1 := s.repairAll d (s.headFix d p)
    let lock := p.isPerm && perm.isNone
    let try' (u : State) : Option State := (u.takeHead d p).tryIssue d p src p.slots [] (if lock then some [] else perm)
    match try' s1 with
    | none => s1.stalledDie d try'
    | some u => if lock && !u.cur.failed.contains 7 then s1.updDie d fun y => { y with permHeld := true } else u

/-- The packet at the head of a die's queue: skipped below the frontier, else issued (R355,
R386, R449). -/
def State.issueQueue (s : State) (d : Nat) (p : Packet) : State :=
  let y := s.die d
  if y.passed p then s.freeEntry d
  else if s.enabled d then s.issueHead d p none
  else (s.takeHead d p).emptyIssue d p (y.turned p)

/-- The slots that a resume left to do run from their latched operands (R355). -/
def State.issueRedo (s : State) (d : Nat) (p : Packet) (src : DieRegs) (m : BitVec 8) : State :=
  let t := s.updDie d fun y => { y with redo := none }
  (t.tryIssue d p src (p.left m) (doneClaims src p m) none true).getD s

/-- DIE_BUNDLE_ISSUE (R140). A packet of a replay that is not for this die is dropped, whatever holds its bundles (R386). -/
def execDieBundleIssue (die : Nat) (s : State) : Host.Outcome State Fault Refusal :=
  let y := s.die die
  let strange := (y.queue.head?.bind (·.replay)).any fun m => !m.getLsbD (s.cdn die)
  .next (if s.noIssue die || y.stopped then s
    else if strange then s.freeEntry die
    else if y.held then s
    else match y.redo with
      | some (.slots p src m) => { s.issueRedo die p src m with cur := Cur.reset }
      | _ =>
        match y.queue with
        | p :: _ => { s.issueQueue die p with cur := Cur.reset }
        | [] => s)

/-! ### Packets and credits (R77, R139) -/

/-- The oldest packet in flight to a die enters its decode queue. -/
def execTreePacketArrival (ctx die : Nat) (s : State) : Host.Outcome State Fault Refusal :=
  let x := s.ctx ctx
  .next (match x.wire.find? (·.1 == die) with
    | some e =>
      (s.updCtx ctx fun x => { x with wire := x.wire.erase e }).updDie die fun y => { y with queue := y.queue ++ [e.2] }
    | none => s)

/-- A credit of a die reaches the sequencer. -/
def execCreditReturn (ctx die : Nat) (s : State) : Host.Outcome State Fault Refusal :=
  .next (if (s.ctx ctx).credits.contains die then
      s.updCtx ctx fun x => { x with credits := x.credits.erase die, used := Tbl.set 0 x.used die (Tbl.get 0 x.used die - 1) }
    else s)

/-! ### The lockstep of PERM (R399, R409 to R411) -/

/-- The PERM packet that a die holds at its queue head. -/
def Die.permHead (y : Die) : Option Packet := if y.permHeld then y.queue.head?.filter Packet.isPerm else none

/-- How the dies of one stream stand with the PERM of a bundle: those that hold it, or none while one has still to reach it. A die that has
passed it, disabled or by an ERET.skip of its fault, does not take part, and the others' lockstep goes on without it: DESIGN CHOICE for the
skip (log 22), on which R355 and R409 are silent. -/
def State.permDies (s : State) (c : Nat) (bsn : BitVec 48) : Option (List (Nat × Packet)) :=
  let ds := (s.issueSet c).filter fun d => !(s.die d).frontier.any fun f => bsn ≤ f
  if ds.all fun d => (s.die d).permHead.any (·.bsn == bsn) then
    some (ds.filterMap fun d => (s.die d).permHead.map fun p => (d, p))
  else none

/-- The streams that take part in a PERM: each context with the PERM's bundle. -/
def State.permStreams (s : State) (c : Nat) (o : GOp) : List (Nat × BitVec 48) :=
  (c, o.bsn) :: (s.partners c).filterMap fun p => (s.gopOf p o.goc).map fun q => (p, q.bsn)

/-- The dies of all streams, or none while one of them waits. -/
def State.permAll (s : State) (l : List (Nat × BitVec 48)) : Option (List (Nat × Packet)) :=
  l.foldl (fun (a : Option (List (Nat × Packet))) e =>
    match a, s.permDies e.1 e.2 with
    | some u, some v => some (u ++ v)
    | _, _ => none) (some [])

/-- The PERM of a packet. -/
def Packet.permOf (p : Packet) : Option Instr := (p.slots.find? (·.1 == 7)).map (·.2)

/-- A die as it stands in the lockstep cc: its registers turned for its packet. -/
def State.permDie (s : State) (l : List (Nat × Packet)) (d : Nat) : Die :=
  let y := s.die d
  match l.find? (·.1 == d) with
  | some e => { y with regs := y.turned e.2 }
  | none => y

/-- A PERM's data leave for a die, as they stood before the lockstep (R410, R411). -/
def State.permSend (s0 : State) (l : List (Nat × Packet)) (s : State) (d : Nat) (p : Packet) : State :=
  match p.permOf with
  | some (.perm a) =>
    let src := (s0.permFrom (l.map (·.1)) a.pat a.gw a.amt d).map fun e => (s0.permDie l e).regs
    let f := permFlight p src (s0.permDie l d).regs a
    s.updDie d fun y => { y.wrote f.qm f.ws p.bsn 7 with permW := some f }
  | some (.permVault a) =>
    let src := (s0.permFrom (l.map (·.1)) a.pat a.gw a.amt d).bind fun e =>
      (l.find? (·.1 == e)).map fun q => (s0.die e, q.2)
    s.updDie d fun y => { y with cmds := y.cmds ++ [permCmd p src (s0.padSize d) a] }
  | _ => s

/-- The granules with an uncorrectable error of the scratchpad block that a vault PERM reads. -/
def Packet.permGrans (p : Packet) (y : Die) : List Nat :=
  match p.permOf with
  | some (.permVault a) => y.badGrans (p.getX a.xs).toNat (p.getX a.xn).toNat
  | _ => []

/-- A die whose scratchpad block has an uncorrectable error when a vault PERM reads it. -/
def State.permBad (s : State) (l : List (Nat × Packet)) : Option (Nat × Packet) :=
  l.find? fun e => !(e.2.permGrans (s.die e.1)).isEmpty

/-- Every die issues its bundle, whatever its other slots meet, and then the data leave. One that must still wait keeps them all. -/
def State.permIssue (s : State) (l : List (Nat × Packet)) : Option State :=
  let u := l.foldl (fun (a : Option State) e =>
    match a with
    | none => none
    | some t =>
      let v := t.issueHead e.1 e.2 (some (l.map (·.1)))
      if (v.die e.1).queue.length < (t.die e.1).queue.length then some v else none) (some s)
  u.map fun t => { l.foldl (fun t e => s.permSend l t e.1 e.2) t with cur := Cur.reset }

/-- The lockstep of a PERM: the dies of the streams issue together, and its gang operation ends. -/
def State.lockstep (s : State) (l : List (Nat × BitVec 48)) (goc : Option (BitVec 32)) : State :=
  match s.permAll l with
  | none => s
  | some ds =>
    if ds.any fun e => (s.die e.1).permBusy || (s.die e.1).held || s.noIssue e.1 then s
    else match s.permBad ds, ds.find? fun e => s.headBad e.1 e.2 with
      | some e, _ => s.vaultConsume e.1 e.1 (e.2.permGrans (s.die e.1)) e.2.bsn
      | none, some e => s.issueHead e.1 e.2 none
      | none, none =>
        match s.permIssue ds with
        | some t =>
          (match goc with
           | some g => l.foldl (fun t e => t.endGop e.1 g) t
           | none => t)
        | none => s

/-- The bundle of the PERM that the dies of a context hold, or the oldest PERM of its gang operations. -/
def State.permBsn (s : State) (c : Nat) : Option (BitVec 48) := (s.issueSet c).findSome? fun d => (s.die d).permHead.map (·.bsn)

def GOp.isPerm (o : GOp) : Bool := match o.ins with | .perm _ => true | .permVault _ => true | _ => false

/-- PERM_LOCKSTEP (R399 to R402, R409): in a multi-stream gang the PERMs of one GOC are one operation. A gang cause is raised where the die
would issue the PERM, or has passed it disabled (R400, R401). -/
def execPermLockstep (ctx : Nat) (s : State) : Host.Outcome State Fault Refusal :=
  let reached (o : GOp) : Bool :=
    let y := s.die (lPart (s.ctx ctx).lrec)
    y.permHead.any (·.bsn == o.bsn) || y.frontier.any fun f => o.bsn ≤ f
  let alone := match s.permBsn ctx with
    | some b => s.lockstep [(ctx, b)] none
    | none => s
  .next (if s.noIssue (lPart (s.ctx ctx).lrec) then s
    else match (s.ctx ctx).gops.find? GOp.isPerm with
      | none => alone
      | some o =>
        match s.gangSt ctx o with
        | .waits => s
        | .broken => if reached o then s.gangFault ctx o 0x0305 else s
        | .differs => if reached o then (s.markDiffers ctx o.goc).gangFault ctx o 0x0304 else s
        | .alone => s.lockstep [(ctx, o.bsn)] (some o.goc)
        | .ready => s.lockstep (s.permStreams ctx o) (some o.goc))

end Sys2Proof.Machine
end

