-- ==== Sys2Proof/Machine/Bundle.lean ====
section
/-! DEFINITION. A bundle at the sequencer (R15 to R19, R22 to R25, R28, R29, R63 to R67, R70, R71, R77, R78, R139, R190, R336, R354,
R376, R377, R383 to R387, R449): fetch, decode, the checks of step 3, the packet, the S and Y slots, and the next PC. -/

namespace Sys2Proof.Machine

/-! ### The scalar registers of a slot (R19, R71, R97, R326) -/

/-- The register that an S slot writes. -/
def sDest : Instr → Option Reg
  | .add xd _ _ => some xd
  | .sub xd _ _ => some xd
  | .mul xd _ _ => some xd
  | .mulh xd _ _ => some xd
  | .mulhn xd _ _ => some xd
  | .div xd _ _ => some xd
  | .divn xd _ _ => some xd
  | .rem xd _ _ => some xd
  | .remn xd _ _ => some xd
  | .and xd _ _ => some xd
  | .or xd _ _ => some xd
  | .xor xd _ _ => some xd
  | .shl xd _ _ => some xd
  | .shr xd _ _ => some xd
  | .sra xd _ _ => some xd
  | .min xd _ _ => some xd
  | .max xd _ _ => some xd
  | .minn xd _ _ => some xd
  | .maxn xd _ _ => some xd
  | .clz xd _ => some xd
  | .popc xd _ => some xd
  | .addi xd _ _ => some xd
  | .andi xd _ _ => some xd
  | .ori xd _ _ => some xd
  | .xori xd _ _ => some xd
  | .shiShl xd _ _ => some xd
  | .shiShr xd _ _ => some xd
  | .shiSra xd _ _ => some xd
  | .li xd _ => some xd
  | .lih xd _ => some xd
  | .sel xd _ _ _ _ => some xd
  | .movqGet xd _ => some xd
  | .movqGetall xd => some xd
  | .fadd _ xd _ _ => some xd
  | .fsub _ xd _ _ => some xd
  | .fmul _ xd _ _ => some xd
  | .ffma _ _ xd _ _ _ => some xd
  | .fcvt _ _ _ xd _ => some xd
  | .lds _ _ xd _ _ => some xd
  | .ldg _ _ _ xd _ _ => some xd
  | .amog _ _ xd _ _ _ => some xd
  | .call xd _ => some xd
  | .callR xd _ => some xd
  | _ => none

/-- The registers that an S slot reads. -/
def sReads : Instr → List Reg
  | .add _ a b => [a, b]
  | .sub _ a b => [a, b]
  | .mul _ a b => [a, b]
  | .mulh _ a b => [a, b]
  | .mulhn _ a b => [a, b]
  | .div _ a b => [a, b]
  | .divn _ a b => [a, b]
  | .rem _ a b => [a, b]
  | .remn _ a b => [a, b]
  | .and _ a b => [a, b]
  | .or _ a b => [a, b]
  | .xor _ a b => [a, b]
  | .shl _ a b => [a, b]
  | .shr _ a b => [a, b]
  | .sra _ a b => [a, b]
  | .min _ a b => [a, b]
  | .max _ a b => [a, b]
  | .minn _ a b => [a, b]
  | .maxn _ a b => [a, b]
  | .clz _ a => [a]
  | .popc _ a => [a]
  | .addi _ a _ => [a]
  | .andi _ a _ => [a]
  | .ori _ a _ => [a]
  | .xori _ a _ => [a]
  | .shiShl _ a _ => [a]
  | .shiShr _ a _ => [a]
  | .shiSra _ a _ => [a]
  | .lih d _ => [d]
  | .cmp _ _ a b => [a, b]
  | .cmpi _ _ a _ => [a]
  | .sel _ _ _ a b => [a, b]
  | .movqSet _ a => [a]
  | .movqSetall a => [a]
  | .fadd _ _ a b => [a, b]
  | .fsub _ _ a b => [a, b]
  | .fmul _ _ a b => [a, b]
  | .ffma _ _ _ a b c => [a, b, c]
  | .fcmp _ _ a b => [a, b]
  | .fcvt _ _ _ _ a => [a]
  | .lds _ _ _ a _ => [a]
  | .sts _ v a _ => [v, a]
  | .ldg _ _ _ _ a _ => [a]
  | .stg _ _ v a _ => [v, a]
  | .amog _ _ _ a b c => [a, b, c]
  | .br _ a b _ => [a, b]
  | .callR _ a => [a]
  | .jmpR a => [a]
  | .ret a => [a]
  | .loop a _ => [a]
  | _ => []

/-- The registers that a Y slot writes (R326). -/
def yDests : Instr → List Reg
  | .sigadd _ xd _ _ => [xd]
  | .sigwait _ _ xd _ _ => [xd]
  | .enq xd _ _ => [xd]
  | .mbox xd _ _ => [xd]
  | .eretReplay xd _ => [xd]
  | .eretSkip xd _ => [xd]
  | .rrfillRetry xd _ => [xd]
  | .rrfillData xd _ _ => [xd]
  | .felog _ _ xd xe => [xd, xe]
  | .mstat _ _ xd => [xd]
  | .sysrd xd _ => [xd]
  | .red _ xd _ => [xd]
  | .coll xd _ _ _ => [xd]
  | .cwait xd _ => [xd]
  | .cwaitTest xd _ => [xd]
  | .ccancel xd _ => [xd]
  | _ => []

/-- The scalar registers that the slots of a bundle read: a die slot's references but for those it writes. -/
def bundleReads (l : List (Nat × Instr)) : List Reg :=
  l.flatMap fun e => if e.1 == 0 then sReads e.2 else (yDests e.2).foldl List.erase e.2.refs

/-- The scalar registers that the checks of step 3 read in a slot: addresses and register targets (R11, R17, R113, R171, R330, R331). LOOP's
two checks read none (R23). -/
def checkReads : Instr → List Reg
  | .lds _ _ _ a _ => [a]
  | .sts _ _ a _ => [a]
  | .ldg _ _ _ _ a _ => [a]
  | .stg _ _ _ a _ => [a]
  | .amog _ _ _ a _ _ => [a]
  | .callR _ a => [a]
  | .jmpR a => [a]
  | .ret a => [a]
  | .vview _ a => [a]
  | .sigadd _ _ a _ => [a]
  | .sigst _ a _ => [a]
  | .sigwait _ _ _ a _ => [a]
  | _ => []

/-- The scalar registers that the slots of a bundle write. -/
def bundleDests (l : List (Nat × Instr)) : List Reg :=
  l.flatMap fun e => if e.1 == 0 then (sDest e.2).toList else yDests e.2

/-- The predicates that a slot reads, and those that it writes. -/
def qReads : Instr → List QIdx
  | .sel _ q _ _ _ => [q]
  | .movqGet _ q => [q]
  | .movqGetall _ => [1, 2, 3, 4, 5, 6, 7]
  | .qop _ _ a b => [a, b]
  | .brq q _ _ => [q]
  | _ => []

def qDests : Instr → List QIdx
  | .cmp q _ _ _ => [q]
  | .cmpi q _ _ _ => [q]
  | .movqSet q _ => [q]
  | .movqSetall _ => [1, 2, 3, 4, 5, 6, 7]
  | .qop _ q _ _ => [q]
  | .fcmp _ q _ _ => [q]
  | _ => []

/-- The slots of a bundle that issue: the S slot, and the die slots where QG is true (R66). -/
def liveSlots (b : Bundle) (x : Ctx) : List (Nat × Instr) := b.slots.filter fun e => e.1 == 0 || x.sc.getQ b.qg

/-! ### Units of a sequencer under SEC-DED (R375, R381) -/

/-- Some register of a list awaits its result (R19). -/
def Ctx.awaits (x : Ctx) (l : List Reg) : Bool := l.any fun n => x.pendX.any fun e => e.1 == n

/-- The registers of a list with an uncorrectable error. -/
def Ctx.lost (x : Ctx) (l : List Reg) : List SeqUnit :=
  x.bad.filter fun u => match u with
    | .x n => l.contains n
    | _ => false

/-- The predicate QG is read for the slots to issue (R66): its error. -/
def Ctx.gateLost (x : Ctx) (b : Bundle) : List SeqUnit :=
  x.bad.filter fun u => match u with
    | .q n => n == b.qg && b.slots.any fun e => e.1 != 0
    | _ => false

/-- The registers and predicates with an uncorrectable error that a bundle reads. -/
def Ctx.regsLost (x : Ctx) (b : Bundle) : List SeqUnit :=
  let l := liveSlots b x
  let qs := (if b.slots.any fun e => e.1 != 0 then [b.qg] else []) ++ l.flatMap fun e => qReads e.2
  x.bad.filter fun u => match u with
    | .x n => (bundleReads l).contains n
    | .q n => qs.contains n
    | _ => false

/-- The SLM range that a slot reads: of LDS, CDESC, ENQ and COLL (R111, R236, R332, R423). -/
def Ctx.slmRead (x : Ctx) : Instr → Option (Nat × Nat)
  | .lds sz _ _ a imm => some ((x.sc.getX a + sext32 imm).toNat, sz.bytes)
  | .cdesc _ a => some (64 * a.toNat, 64)
  | .enq _ _ a => some (64 * a.toNat, 64)
  | .coll _ _ _ a => some (64 * a.toNat, 64)
  | _ => none

/-- The words of SLM with an uncorrectable error that a bundle reads. -/
def Ctx.slmLost (x : Ctx) (b : Bundle) : List SeqUnit :=
  let rs := (liveSlots b x).filterMap fun e => x.slmRead e.2
  x.bad.filter fun u => match u with
    | .slm n => rs.any fun r => r.1 < 8 * n + 8 && 8 * n < r.1 + r.2
    | _ => false

/-- The word of SLM that an STS writes whole. -/
def Ctx.stsUnit (x : Ctx) (b : Bundle) : Option Nat :=
  match (b.slots.find? (·.1 == 0)).map fun (e : Nat × Instr) => e.2 with
  | some (Instr.sts sz _ a imm) => if sz.bytes == 8 then some ((x.sc.getX a + sext32 imm).toNat / 8) else none
  | _ => none

/-- What a bundle has written whole is good again, and so is the loop stack once it is empty and an entry of the resend buffer once it is
gone (R375). -/
def Ctx.rewritten (x : Ctx) (xs : List Reg) (qs : List QIdx) (sts : Option Nat) (bsn : BitVec 48) : Ctx :=
  { x with bad := x.bad.filter fun u => match u with
      | .x n => !xs.contains n
      | .q n => !qs.contains n
      | .loops => !x.loops.isEmpty
      | .slm n => sts != some n
      | .resend k => k != bsn && x.resend.any fun p => p.bsn == k }

/-- The bundle at a context's PC consumes the errors of its sequencer's units (R381). -/
def State.seqLost (s : State) (c : Nat) (us : List SeqUnit) : State :=
  let b := (s.ctx c).bsn
  s.consumeAll c (s.issueSet c) (s.seqBank c)
    (us.map fun _ => (s.seqBank c, { uc := true, kind := 2, w2 := Config.syndrome s.stepNo, w3 := b.setWidth 64 })) b false

/-! ### Fetch (R20 to R22, R387) -/

/-- What a fetch finds. -/
inductive Fetched where
  | line (b : BundleBits)
  | fault (w : BitVec 8)
  | poison (pa : Nat)
  deriving DecidableEq, Repr

/-- The line that a context's instruction cache holds for an address of its job (R21). -/
def Ctx.cachedLine (x : Ctx) (pc : Nat) (job : BitVec 16) : Option BundleBits :=
  (x.icache.find? fun e => e.1 == pc && e.2.1 == job).map (·.2.2)

/-- The 64 bytes at a physical address as a bundle (R2, R62). -/
def State.bundleAt (s : State) (pa : Nat) : BundleBits := BitVec.ofNat 512 (s.homeRd pa 64)

/-- The bundle at the PC of a context: its line of the instruction cache, else memory (R20, R22). -/
def State.fetch (s : State) (c : Nat) : Fetched :=
  let x := s.ctx c
  let t := s.ctxXlat c
  match x.cachedLine x.pc.toNat t.job with
  | some b => .line b
  | none =>
    match s.translate x.tlb t .fetch true x.pc.toNat with
    | .error w => .fault w
    | .ok (pa, _) => if s.poisonIn pa 64 then .poison pa else .line (s.bundleAt pa)

/-- Lines of a context's instruction cache: 512 KiB, and half of it on a core of a split pair (R6, R20). -/
def State.icLines (s : State) (c : Nat) : Nat := if s.unprot && c != purser then 4096 else 8192

/-- A line enters the instruction cache with its translation; the oldest line makes room (R20, R364; log 14). -/
def State.addLine (s : State) (c pc : Nat) (b : BundleBits) (e : TlbE) : State :=
  s.updCtx c fun x =>
    { x with icache := ((pc, (s.ctxXlat c).job, b) :: x.icache).take (s.icLines c), tlb := tlbAdd s.xinvBusy x.tlb e }

/-- The line after one that has been filled is prefetched; one that faults in translation, or would bring poison, is dropped without
effect (R20, R22; log 14). -/
def State.prefetch (s : State) (c pc : Nat) : State :=
  let x := s.ctx c
  let t := s.ctxXlat c
  if 2 ^ 56 ≤ pc || (x.cachedLine pc t.job).isSome then s
  else match s.translate x.tlb t .fetch true pc with
    | .error _ => s
    | .ok (pa, e) => if s.poisonIn pa 64 then s else s.addLine c pc (s.bundleAt pa) e

/-- The instruction cache and the translation cache keep what a fetch brought, and the next line follows (R20, R364). -/
def State.keepLine (s : State) (c : Nat) (b : BundleBits) : State :=
  let x := s.ctx c
  let t := s.ctxXlat c
  match x.cachedLine x.pc.toNat t.job, s.leaf x.tlb t x.pc.toNat with
  | none, .ok e => (s.addLine c x.pc.toNat b e).prefetch c (x.pc.toNat + 64)
  | _, _ => s

/-! ### The packet (R66, R77, R78, R190, R386) -/

/-- The die slots that a bundle sends: none where QG is false (R66). A suppressed engine slot leaves its token DONE; where an earlier command
still holds that token PEND it stays so until the command ends: R66 marks it complete and R259 has no row for it, so this is the model's
choice, for an MLDS and an MMUL as well (R179; log 21). -/
def bundleDie (b : Bundle) (x : Ctx) : List (Nat × Instr) := if x.sc.getQ b.qg then b.slots.filter fun e => e.1 != 0 else []

/-- The S slot of a bundle. -/
def bundleS (b : Bundle) : Option Instr := (b.slots.find? (·.1 == 0)).map (·.2)

/-- The faulted dies as a mask, for a bundle of a replay (R386). -/
def State.replayMask (s : State) (c : Nat) : Option W64 :=
  let x := s.ctx c
  match x.seg.rewind with
  | some r => if r.covers x.bsn then some (w64 (r.faulted.foldl (fun n d => n ||| 2 ^ s.cdn d) 0)) else none
  | none => none

/-- The record and code of the packet's CDESC (R236). -/
def State.packetDesc (s : State) (l : List (Nat × Instr)) : Option (BitVec 512 × Nat) :=
  match l.find? (·.1 == 6) with
  | some (_, .cdesc _ a) => some (s.descAt a)
  | _ => none

/-- The tree packet of a bundle (R77, R78). `s` is the state before the bundle, its context current. -/
def State.packetFor (s : State) (b : Bundle) : Packet :=
  let x := s.cx
  let l := bundleDie b x
  let regs := l.flatMap fun e => e.2.refs
  { rv := b.rv, rep := b.rep && !l.isEmpty, slots := l, words := regs.map x.sc.getX, wregs := regs, bsn := x.bsn, addr := x.pc, rm := x.rm,
    pass := (x.loops.head?.map (·.edges)).getD 0, rotn := x.rotn, desc := s.packetDesc l, replay := s.replayMask s.cur.ctx }

/-- A bundle sends a packet: a die slot issues, or RV is set (R77). The purser pair drives no die. -/
def Packet.sent (p : Packet) : Bool := p.rv || !p.slots.isEmpty

/-- The dies whose credits a packet needs: those of the DMASK, or of the replay (R139, R386, R406). -/
def State.creditDies (s : State) (c : Nat) (p : Packet) : List Nat :=
  match p.replay with
  | some m => (s.enabledDies c).filter fun d => m.getLsbD (s.cdn d)
  | none => s.enabledDies c

/-- A die, enabled or not, has still to issue a packet of the resend buffer: on a die that a rewind restores not one of the discarded
attempt, and on another not one of the replay (R354, R386). -/
def State.awaitedBy (s : State) (c : Nat) (p : Packet) (d : Nat) : Bool :=
  (s.ctx c).resendTo d p && (p.replay.all fun m => m.getLsbD (s.cdn d)) && !(s.die d).passed p

/-- The resend buffer holds 64 packets, the oldest of which some die has still to issue (R354). -/
def State.resendFull (s : State) (c : Nat) : Bool :=
  let r := (s.ctx c).resend
  64 ≤ r.length && r.head?.any fun p => (s.issueSet c).any (s.awaitedBy c p)

/-- A die that the packet reaches has no credit (R139), or the resend buffer has no room: every die stays within 64 packets (R354). -/
def State.noCredit (s : State) (c : Nat) (p : Packet) : Bool :=
  p.sent && (((s.creditDies c p).any fun d => 64 ≤ Tbl.get 0 (s.ctx c).used d) || s.resendFull c)

/-- The sequencer sends a packet to every die of its issue set and keeps it for a resend (R77, R139, R354). -/
def State.send (s : State) (c : Nat) (p : Packet) : State :=
  if !p.sent then s
  else
    let ds := s.issueSet c
    s.updCtx c fun x =>
      let r := x.resend ++ [p]
      { x with wire := x.wire ++ ds.map fun d => (d, p)
               used := ds.foldl (fun t d => Tbl.put t d (Tbl.get 0 t d + 1)) x.used
               resend := r.drop (r.length - 64)
               rotn := 0 }

/-! ### The slots of a bundle at the sequencer (R28, R70, R336) -/

/-- A slot of the bundle at the sequencer, over the values before the bundle `s0` (R70). -/
def State.enterSeq (s s0 : State) (c slot : Nat) (p : Packet) : State :=
  let x := s0.ctx c
  { s with
    cur :=
      { Cur.reset with
        ctx := c
        slot := slot
        snap := some x.sc
        slm0 := some x.slm
        port0 := some x.port
        rm0 := some x.rm
        pkt := some p
        npc := s.cur.npc
        taken := s.cur.taken } }

/-- The slots that act at the sequencer: the S slot, and of the die slots VVIEW, CDESC and the Y slot (R15, R171, R236, R324). -/
def seqSlots (b : Bundle) (p : Packet) : List (Nat × Instr) :=
  (b.slots.filter fun e => e.1 == 0) ++ p.slots.filter fun e =>
    match e.2 with
    | .vview _ _ => true
    | .cdesc _ _ => true
    | _ => e.1 == 7

/-- A slot tried alone from the state before the bundle. -/
def State.probe (s : State) (c : Nat) (p : Packet) (e : Nat × Instr) : State := (s.enterSeq s c e.1 p).slot e.2

/-- The outcome of a bundle's checks: the first cause in the order of R336, or a slot that waits. -/
def State.firstTrap (l : List State) : Option State :=
  l.foldl (fun (a : Option State) t =>
    match t.cur.trap, a with
    | some u, some b => if u.cause < ((b.cur.trap.map (·.cause)).getD 0) then some t else a
    | some _, none => some t
    | none, _ => a) none

/-- An access of the port loses its destination: the Y slot's write stands (R71). -/
def SOp.noDest : SOp → SOp
  | .load sx _ => .load sx 0
  | .amo f _ b c => .amo f 0 b c
  | .store v => .store v

/-- The S slot's pending result is not written where the Y slot writes the same register (R71). -/
def Ctx.yWins (x : Ctx) (bsn : BitVec 48) (ds : List Reg) : Ctx :=
  { x with
    port := x.port.map fun a => if a.bsn == bsn && a.op.dest.any ds.contains then { a with op := a.op.noDest } else a
    pendX := x.pendX.filter fun e => !(e.2 == bsn && ds.contains e.1) }

/-- The S slot and the Y slot take effect (R15, R71, R326). -/
def State.runSeq (s s0 : State) (c : Nat) (b : Bundle) (p : Packet) : State :=
  let t := match bundleS b with
    | some i => (s.enterSeq s0 c 0 p).slot i
    | none => s
  match p.slots.find? (·.1 == 7) with
  | some (_, i) => ((t.updCtx c fun x => x.yWins p.bsn (yDests i)).enterSeq s0 c 7 p).slot i
  | none => t

/-! ### The end of a bundle (R17, R18, R24, R383, R384) -/

/-- A global VAMO makes its segment unrepeatable (R385). -/
def Packet.outside (p : Packet) : Bool := p.slots.any fun e => match e.2 with | .vamo a => a.glob | _ => false

/-- The next PC and the loop stack after the bundle at `pc`; whether a back edge was taken (R24). -/
def loopEdge (loops : List LoopE) (pc : VA) : VA × List LoopE × Bool :=
  match loops with
  | e :: r =>
    if e.e == pc then
      if e.count == 1 then (pc + 64, r, false) else (e.s, { e with count := e.count - 1, edges := e.edges + 1 } :: r, true)
    else (pc + 64, loops, false)
  | [] => (pc + 64, loops, false)

/-- PC, BSN and the loop stack after a bundle: the S slot's transfer, else the loop edge, else PC + 64 (R15, R17, R24). -/
def Ctx.advance (x : Ctx) (taken : Bool) (npc : VA) : Ctx :=
  if taken then { x with pc := npc, bsn := x.bsn + 1 }
  else
    let r := loopEdge x.loops x.pc
    { x with pc := r.1, bsn := x.bsn + 1, loops := r.2.1, rotn := if r.2.2 then x.rotn + 1 else x.rotn }

/-- A bundle of the context completes: the next PC, BSN and the count of bundles (R15, R16, R18, R344). -/
def State.closeBundle (s : State) (c : Nat) (taken : Bool) (npc : VA) : State :=
  (s.updCtx c fun x => x.advance taken npc).count c 0x01 1

/-- NO_OPERATION: a bundle whose PRESENT field is zero counts in BSN and advances PC (R16). -/
def execNoOperation (s : State) : Host.Outcome State Fault Refusal := .next (s.closeBundle s.cur.ctx false 0)

/-- An RV bundle closes the segment: the context's checkpoint is that of the next one (R383, R384). -/
def Ctx.closeSeg (x : Ctx) (bsn : BitVec 48) (pc : VA) : Ctx :=
  { x with seg := { x.seg with closing := some (bsn, pc), next := some x.checkpoint } }

/-- A replay does not reach the segment's RV bundle as before (R386, step 5). -/
def Ctx.diverges (x : Ctx) (b : Bundle) : Bool :=
  match x.seg.rewind with
  | some r =>
    (match r.expect with
     | some (n, a) =>
       let exits := match bundleS b with
         | some (.exit _) => true
         | _ => false
       if x.bsn == n then !b.rv || x.pc != a else decide (x.bsn < n) && (b.rv || exits)
     | none => false)
  | none => false

/-! ### One bundle (R15) -/

/-- The loop marks of the bundle at the PC, on the first pass through a body (R25). -/
def Ctx.markBad (x : Ctx) (b : Bundle) : Bool :=
  x.loops.any fun e => e.edges == 0 && ((e.s == x.pc && !b.lbs) || (e.e == x.pc && !b.lbe))

/-- BSN_EXHAUSTED ranks last (R18, R336). -/
def Ctx.exhausted (x : Ctx) : Bool := x.bsn == BitVec.allOnes 48

/-- The bundle issues: its packet, its S and Y slots, and its end. Results of earlier bundles that its slots overwrite are awaited no
more (R19). -/
def State.issueBundle (s : State) (c : Nat) (b : Bundle) (p : Packet) : State :=
  let s1 := s.send c p
  let s2 := if p.outside && !(s.enabledDies c).isEmpty then s1.unrepeatable c else s1
  let s3 := (s2.updCtx c fun x => x.supersede (bundleDests (liveSlots b x))).runSeq s c b p
  let s4 := s3.closeBundle c s3.cur.taken s3.cur.npc
  let x := s.ctx c
  let l := liveSlots b x
  let s5 := s4.updCtx c fun y => y.rewritten (bundleDests l) (l.flatMap fun e => qDests e.2) (x.stsUnit b) p.bsn
  if b.rv then s5.updCtx c fun x => x.closeSeg p.bsn p.addr else s5

/-- The record of a context that has frozen keeps the field of its faulting slot (R356). -/
def State.noteField (t : State) (c : Nat) (field : Nat → SlotBits) : State :=
  t.updCtx c fun x => if x.frozen then { x with fcr := { x.fcr with field := field x.fcr.slot } } else x

/-- The field of a slot of a decoded bundle. -/
def slotBits (b : Bundle) (i : Nat) : SlotBits :=
  match b.slots.find? (·.1 == i) with
  | some e => encode e.2
  | none => 0

/-- A LOOP whose end lies before its body (R23, R79): of the checks that a slot makes, the first in the order of R336. -/
def Ctx.loopBack (x : Ctx) (b : Bundle) : Bool :=
  match bundleS b with
  | some (.loop _ off) => off.toInt < 1 || x.pc + (off.signExtend 56) * 64 < x.pc + 64
  | _ => false

/-- The entry of the selected retry ring whose words a bundle of the purser pair reads holds an uncorrectable error (R356, R375). -/
def State.ringLost (s : State) (c : Nat) (b : Bundle) : Bool :=
  c == purser && (liveSlots b (s.ctx c)).any fun e => match e.2 with
    | .sysrd _ a =>
      0x230 ≤ a.toNat && a.toNat < 0x234 && bf s.svcsel 6 0 < s.nparts &&
        (Tbl.get? (s.die (bf s.svcsel 6 0)).ring (bf s.svcsel 18 7)).any (·.bad)
    | _ => false

/-- A bundle that a slot holds back: it waits, and a speculative run that it holds back for the claim alone is STALLED (R309, R319). -/
def State.stalledBundle (s : State) (c : Nat) (b : Bundle) (p : Packet) : State :=
  if (s.ctx c).isSpec then
    let t := s.updCtx c fun x => { x with spec := none }
    if ((seqSlots b p).map (t.probe c p)).any fun u => u.cur.stalled then s else s.noteStall c
  else s

/-- Steps 4 and 5 of a bundle that has passed its checks (R15, R28, R97, R139, R384): it waits for its operands, consumes their errors, waits
for what its slots and its packet need, and issues. `tries`: its slots tried. -/
def State.readBundle (s : State) (c : Nat) (b : Bundle) (p : Packet) (tries : List State) : State :=
  let x := s.ctx c
  if x.awaits (bundleReads (liveSlots b x)) then s
  else if !(x.regsLost b).isEmpty then s.seqLost c (x.regsLost b)
  else if tries.any fun t => t.cur.stalled then s.stalledBundle c b p
  else if (b.rv && x.commitWaits) || s.noCredit c p then s
  else if !(x.slmLost b).isEmpty then s.seqLost c (x.slmLost b)
  else if s.ringLost c b then
    s.consume c (s.issueSet c) (s.vaultBank (bf s.svcsel 6 0)) { uc := true, kind := 2, w2 := Config.syndrome s.stepNo } x.bsn false
  else s.issueBundle c b p

/-- The checks of a slot at step 3, in the order of R336, and the BSN limit (R15, R18, R23). Of the operands they read those of `checkReads`
alone, and QG: a check waits for such a register, and consumes its error (log 22). -/
def State.slotChecks (s : State) (c : Nat) (b : Bundle) (p : Packet) : State :=
  let x := s.ctx c
  let rs := (liveSlots b x).flatMap fun e => checkReads e.2
  let us := x.gateLost b ++ x.lost rs
  if x.awaits rs then s
  else if !us.isEmpty then s.seqLost c us
  else
    let tries := (seqSlots b p).map (s.probe c p)
    match State.firstTrap tries with
    | some t => t.noteField c (slotBits b)
    | none =>
      if x.exhausted then { s with cur := { s.cur with pkt := some p } }.takeTrapOn c { cause := 0x0012 }
      else s.readBundle c b p tries

/-- The context of `s.cur` is c. A decoded bundle from step 3 on (R15, R336). -/
def State.checkBundle (s : State) (c : Nat) (b : Bundle) : State :=
  let x := s.ctx c
  let p := s.packetFor b
  if x.diverges b then s.machineCheck c 0x0204 ((x.seg.rewind.map (·.bank)).getD (s.seqBank c))
  else if x.loopBack b then ({ s with cur := { s.cur with pkt := some p } }.takeTrapOn c { cause := 0x0003 }).noteField c (slotBits b)
  else if x.bad.contains .loops && !x.loops.isEmpty then s.seqLost c [.loops]
  else if x.markBad b then { s with cur := { s.cur with pkt := some p } }.takeTrapOn c { cause := 0x0003 }
  else s.slotChecks c b p

/-- Decode, and what follows it (R15, R68, R69). A rejected bundle's record names the slot that fails; none where the header fails. -/
def State.decodeAt (s : State) (c : Nat) (w : BundleBits) : State :=
  match decodeBundle w with
  | .error d =>
    let k := d.toNat % 16
    (s.takeTrapOn c { cause := 0x0002, detail := d, slot := k % 8 }).noteField c fun i => if k == 8 then 0 else slotField w i
  | .ok b => s.checkBundle c b

/-- The segment of a mismatching bundle counts it (R377). -/
def Seg.mismatched (g : Seg) (late : Bool) : Seg :=
  if late then { g with mismatchesNext := g.mismatchesNext + 1 } else { g with mismatches := g.mismatches + 1 }

/-- The other streams of a gang rewind with the one that mismatched: every die of the gang does (R377). A stream whose segment cannot be
repeated is a machine check of its own (R385). -/
def State.rewindPartners (s : State) (c : Nat) : State :=
  ((s.partners c).filter fun p => (s.ctx p).lst == .running || (s.ctx p).lst == .exited).foldl
    (fun t p => t.consumeAll p (t.issueSet p) (s.seqBank c) [] (t.ctx p).bsn false) s

/-- A lockstep mismatch is found at the context's next bundle: an uncorrectable error that rewinds every die of the gang, and the second one
of a segment is a machine check (R376, R377). -/
def State.lockstepError (s : State) (c : Nat) : State :=
  let x := s.ctx c
  let late := x.seg.inNext x.bsn
  let s1 := s.updCtx c fun x => { x with mismatch := false }
  let e : ErrIn := { uc := true, kind := 4, w2 := Config.syndrome s.stepNo, w3 := x.bsn.setWidth 64 }
  if !x.isSpec && 1 ≤ (if late then x.seg.mismatchesNext else x.seg.mismatches) then
    (s1.logErr (s.seqBank c) { e with mc := true, part := if c == purser then none else some c }).machineCheck c 0x0201 (s.seqBank c)
  else
    let t := (s1.updCtx c fun x => { x with seg := x.seg.mismatched late }).consume c (s.issueSet c) (s.seqBank c) e x.bsn false
    if x.isSpec || (t.ctx c).mcheck then t else t.rewindPartners c

/-- A fetch receives poison: a machine check; a speculative run is discarded (R309, R387). Its bank records it (R391). -/
def State.fetchPoison (s : State) (c pa : Nat) : State :=
  let spec := (s.ctx c).isSpec
  let e : ErrIn :=
    { uc := true, mc := !spec, kind := 5, part := if c == purser then none else some c, w1 := w64 pa, w2 := Config.syndrome s.stepNo,
      w3 := (s.ctx c).bsn.setWidth 64 }
  let t := s.logErr (memBank pa) e
  if spec then t.discard c 62 else t.machineCheck c 0x0206 (memBank pa)

/-- A context can take its next bundle: it issues, waits for nothing, and no rewind stands before its replay (R31, R386). -/
def State.mayIssue (s : State) (c : Nat) : Bool :=
  let x := s.ctx c
  s.issues c && x.wait == .none && x.seg.rewind.all (·.replaying)

/-- The launch is RUNNING from its first fetch on (R31). -/
def Ctx.running (x : Ctx) : Ctx := if x.lst == .entry then { x with lst := .running } else x

/-- The next bundle of a context that may issue. -/
def State.nextBundle (s : State) (c : Nat) : State :=
  if (s.ctx c).mismatch then s.lockstepError c
  else
    match s.fetch c with
    | .fault _ => (s.updCtx c Ctx.running).takeTrapOn c { cause := 0x0001, data := (s.ctx c).pc }
    | .poison pa => (s.updCtx c Ctx.running).fetchPoison c pa
    | .line w => ((s.updCtx c Ctx.running).keepLine c w).decodeAt c w

/-- The next bundle of a context (R15). A bundle that must wait leaves the context as it is. -/
def State.bundle (s : State) (c : Nat) : State :=
  if s.mayIssue c then { { s with cur := { Cur.reset with ctx := c } }.nextBundle c with cur := Cur.reset } else s

end Sys2Proof.Machine
end

