-- ==== Sys2Proof/Machine/Dispatch.lean ====
section
/-! DEFINITION. exec: one arm per constructor of Instr, each a direct call of that instruction's meaning. -/

namespace Sys2Proof.Machine

def exec (i : Instr) (s : State) : Host.Outcome State Fault Refusal :=
  match i with
  | .noOperation => Sys2Proof.Machine.execNoOperation s
  | .add xd xa xb => Sys2Proof.Machine.execAdd xd xa xb s
  | .sub xd xa xb => Sys2Proof.Machine.execSub xd xa xb s
  | .mul xd xa xb => Sys2Proof.Machine.execMul xd xa xb s
  | .mulh xd xa xb => Sys2Proof.Machine.execMulh xd xa xb s
  | .mulhn xd xa xb => Sys2Proof.Machine.execMulhn xd xa xb s
  | .div xd xa xb => Sys2Proof.Machine.execDiv xd xa xb s
  | .divn xd xa xb => Sys2Proof.Machine.execDivn xd xa xb s
  | .rem xd xa xb => Sys2Proof.Machine.execRem xd xa xb s
  | .remn xd xa xb => Sys2Proof.Machine.execRemn xd xa xb s
  | .and xd xa xb => Sys2Proof.Machine.execAnd xd xa xb s
  | .or xd xa xb => Sys2Proof.Machine.execOr xd xa xb s
  | .xor xd xa xb => Sys2Proof.Machine.execXor xd xa xb s
  | .shl xd xa xb => Sys2Proof.Machine.execShl xd xa xb s
  | .shr xd xa xb => Sys2Proof.Machine.execShr xd xa xb s
  | .sra xd xa xb => Sys2Proof.Machine.execSra xd xa xb s
  | .min xd xa xb => Sys2Proof.Machine.execMin xd xa xb s
  | .max xd xa xb => Sys2Proof.Machine.execMax xd xa xb s
  | .minn xd xa xb => Sys2Proof.Machine.execMinn xd xa xb s
  | .maxn xd xa xb => Sys2Proof.Machine.execMaxn xd xa xb s
  | .clz xd xa => Sys2Proof.Machine.execClz xd xa s
  | .popc xd xa => Sys2Proof.Machine.execPopc xd xa s
  | .addi xd xa imm => Sys2Proof.Machine.execAddi xd xa imm s
  | .andi xd xa imm => Sys2Proof.Machine.execAndi xd xa imm s
  | .ori xd xa imm => Sys2Proof.Machine.execOri xd xa imm s
  | .xori xd xa imm => Sys2Proof.Machine.execXori xd xa imm s
  | .shiShl xd xa imm => Sys2Proof.Machine.execShiShl xd xa imm s
  | .shiShr xd xa imm => Sys2Proof.Machine.execShiShr xd xa imm s
  | .shiSra xd xa imm => Sys2Proof.Machine.execShiSra xd xa imm s
  | .li xd imm => Sys2Proof.Machine.execLi xd imm s
  | .lih xd imm => Sys2Proof.Machine.execLih xd imm s
  | .cmp qd c xa xb => Sys2Proof.Machine.execCmp qd c xa xb s
  | .cmpi qd c xa imm => Sys2Proof.Machine.execCmpi qd c xa imm s
  | .sel xd q neg xa xb => Sys2Proof.Machine.execSel xd q neg xa xb s
  | .movqGet xd qa => Sys2Proof.Machine.execMovqGet xd qa s
  | .movqSet qd xa => Sys2Proof.Machine.execMovqSet qd xa s
  | .movqGetall xd => Sys2Proof.Machine.execMovqGetall xd s
  | .movqSetall xa => Sys2Proof.Machine.execMovqSetall xa s
  | .qop f qd qa qb => Sys2Proof.Machine.execQop f qd qa qb s
  | .fadd rm xd xa xb => Sys2Proof.Machine.execFadd rm xd xa xb s
  | .fsub rm xd xa xb => Sys2Proof.Machine.execFsub rm xd xa xb s
  | .fmul rm xd xa xb => Sys2Proof.Machine.execFmul rm xd xa xb s
  | .ffma sg rm xd xa xb xc => Sys2Proof.Machine.execFfma sg rm xd xa xb xc s
  | .fcmp r qd xa xb => Sys2Proof.Machine.execFcmp r qd xa xb s
  | .fcvt k sat rm xd xa => Sys2Proof.Machine.execFcvt k sat rm xd xa s
  | .lds sz sx xd xa imm => Sys2Proof.Machine.execLds sz sx xd xa imm s
  | .sts sz xs xa imm => Sys2Proof.Machine.execSts sz xs xa imm s
  | .ldg sz sx dev xd xa imm => Sys2Proof.Machine.execLdg sz sx dev xd xa imm s
  | .stg sz dev xs xa imm => Sys2Proof.Machine.execStg sz dev xs xa imm s
  | .amog op four xd xa xb xc => Sys2Proof.Machine.execAmog op four xd xa xb xc s
  | .globalLoadReturn ctx idx => Sys2Proof.Machine.execGlobalLoadReturn ctx idx s
  | .br c xa xb off => Sys2Proof.Machine.execBr c xa xb off s
  | .brq q neg off => Sys2Proof.Machine.execBrq q neg off s
  | .call xd off => Sys2Proof.Machine.execCall xd off s
  | .callR xd xa => Sys2Proof.Machine.execCallR xd xa s
  | .jmp off => Sys2Proof.Machine.execJmp off s
  | .jmpR xa => Sys2Proof.Machine.execJmpR xa s
  | .ret xa => Sys2Proof.Machine.execRet xa s
  | .loop xa off => Sys2Proof.Machine.execLoop xa off s
  | .exit code => Sys2Proof.Machine.execExit code s
  | .treePacketArrival ctx die => Sys2Proof.Machine.execTreePacketArrival ctx die s
  | .dieBundleIssue die => Sys2Proof.Machine.execDieBundleIssue die s
  | .creditReturn ctx die => Sys2Proof.Machine.execCreditReturn ctx die s
  | .storePerformed a idx => Sys2Proof.Machine.execStorePerformed a idx s
  | .vectorResultWrite die idx => Sys2Proof.Machine.execVectorResultWrite die idx s
  | .vadd a => Sys2Proof.Machine.execVadd a s
  | .vsub a => Sys2Proof.Machine.execVsub a s
  | .vmul a => Sys2Proof.Machine.execVmul a s
  | .vmulh a => Sys2Proof.Machine.execVmulh a s
  | .vdiv a => Sys2Proof.Machine.execVdiv a s
  | .vmin a => Sys2Proof.Machine.execVmin a s
  | .vmax a => Sys2Proof.Machine.execVmax a s
  | .vfma a => Sys2Proof.Machine.execVfma a s
  | .vfms a => Sys2Proof.Machine.execVfms a s
  | .vfnma a => Sys2Proof.Machine.execVfnma a s
  | .vadds a => Sys2Proof.Machine.execVadds a s
  | .vsubs a => Sys2Proof.Machine.execVsubs a s
  | .vabs a => Sys2Proof.Machine.execVabs a s
  | .vneg a => Sys2Proof.Machine.execVneg a s
  | .vmov a => Sys2Proof.Machine.execVmov a s
  | .vand a => Sys2Proof.Machine.execVand a s
  | .vor a => Sys2Proof.Machine.execVor a s
  | .vxor a => Sys2Proof.Machine.execVxor a s
  | .vandn a => Sys2Proof.Machine.execVandn a s
  | .vshl a => Sys2Proof.Machine.execVshl a s
  | .vshr a => Sys2Proof.Machine.execVshr a s
  | .vclz a => Sys2Proof.Machine.execVclz a s
  | .vpopc a => Sys2Proof.Machine.execVpopc a s
  | .vcmp a => Sys2Proof.Machine.execVcmp a s
  | .vsel a => Sys2Proof.Machine.execVsel a s
  | .vcvt a => Sys2Proof.Machine.execVcvt a s
  | .vrcp a => Sys2Proof.Machine.execVrcp a s
  | .vsqrt a => Sys2Proof.Machine.execVsqrt a s
  | .vrsq a => Sys2Proof.Machine.execVrsq a s
  | .vexp2 a => Sys2Proof.Machine.execVexp2 a s
  | .vlog2 a => Sys2Proof.Machine.execVlog2 a s
  | .vtanh a => Sys2Proof.Machine.execVtanh a s
  | .vshuf a => Sys2Proof.Machine.execVshuf a s
  | .vrotr a => Sys2Proof.Machine.execVrotr a s
  | .vrotc a => Sys2Proof.Machine.execVrotc a s
  | .vbcr a => Sys2Proof.Machine.execVbcr a s
  | .vbcc a => Sys2Proof.Machine.execVbcc a s
  | .vredr a => Sys2Proof.Machine.execVredr a s
  | .vredc a => Sys2Proof.Machine.execVredc a s
  | .vidx a => Sys2Proof.Machine.execVidx a s
  | .pand a => Sys2Proof.Machine.execPand a s
  | .por a => Sys2Proof.Machine.execPor a s
  | .pxor a => Sys2Proof.Machine.execPxor a s
  | .pnot a => Sys2Proof.Machine.execPnot a s
  | .vladd a => Sys2Proof.Machine.execVladd a s
  | .vlrnd a => Sys2Proof.Machine.execVlrnd a s
  | .vlclr pg vd => Sys2Proof.Machine.execVlclr pg vd s
  | .vcond a => Sys2Proof.Machine.execVcond a s
  | .vview vw xa => Sys2Proof.Machine.execVview vw xa s
  | .mlds a => Sys2Proof.Machine.execMlds a s
  | .mldsComplete die => Sys2Proof.Machine.execMldsComplete die s
  | .mswap => Sys2Proof.Machine.execMswap s
  | .mzero => Sys2Proof.Machine.execMzero s
  | .mmul a => Sys2Proof.Machine.execMmul a s
  | .mmulRowDrain die idx => Sys2Proof.Machine.execMmulRowDrain die idx s
  | .vld a => Sys2Proof.Machine.execVld a s
  | .vldx a => Sys2Proof.Machine.execVldx a s
  | .vldg a => Sys2Proof.Machine.execVldg a s
  | .vpref a => Sys2Proof.Machine.execVpref a s
  | .vldt a => Sys2Proof.Machine.execVldt a s
  | .fill a => Sys2Proof.Machine.execFill a s
  | .vst a => Sys2Proof.Machine.execVst a s
  | .vstx a => Sys2Proof.Machine.execVstx a s
  | .vstg a => Sys2Proof.Machine.execVstg a s
  | .vamo a => Sys2Proof.Machine.execVamo a s
  | .spill a => Sys2Proof.Machine.execSpill a s
  | .loadDataReturn die idx => Sys2Proof.Machine.execLoadDataReturn die idx s
  | .remoteVaultReply die idx => Sys2Proof.Machine.execRemoteVaultReply die idx s
  | .translationWalkComplete die vpage => Sys2Proof.Machine.execTranslationWalkComplete die vpage s
  | .cdesc ds slma => Sys2Proof.Machine.execCdesc ds slma s
  | .ccopyIn a => Sys2Proof.Machine.execCcopyIn a s
  | .ccopyOut a => Sys2Proof.Machine.execCcopyOut a s
  | .cmcast a => Sys2Proof.Machine.execCmcast a s
  | .fillStart die idx => Sys2Proof.Machine.execFillStart die idx s
  | .cmcastReadStart die idx => Sys2Proof.Machine.execCmcastReadStart die idx s
  | .copyFillComplete die idx => Sys2Proof.Machine.execCopyFillComplete die idx s
  | .copyDrainComplete die idx => Sys2Proof.Machine.execCopyDrainComplete die idx s
  | .tdef tn offs size swz keep => Sys2Proof.Machine.execTdef tn offs size swz keep s
  | .trel tn => Sys2Proof.Machine.execTrel tn s
  | .tcfg tn swz => Sys2Proof.Machine.execTcfg tn swz s
  | .cflush tout tin inv => Sys2Proof.Machine.execCflush tout tin inv s
  | .cflushComplete die idx => Sys2Proof.Machine.execCflushComplete die idx s
  | .csplit nw => Sys2Proof.Machine.execCsplit nw s
  | .cstat dc k => Sys2Proof.Machine.execCstat dc k s
  | .cacheLineWriteback die pa => Sys2Proof.Machine.execCacheLineWriteback die pa s
  | .twait tin => Sys2Proof.Machine.execTwait tin s
  | .bacq shared region => Sys2Proof.Machine.execBacq shared region s
  | .bollardGrant addr => Sys2Proof.Machine.execBollardGrant addr s
  | .brel region => Sys2Proof.Machine.execBrel region s
  | .bollardRelease addr ctx => Sys2Proof.Machine.execBollardRelease addr ctx s
  | .bollardWriteback addr => Sys2Proof.Machine.execBollardWriteback addr s
  | .fence sc => Sys2Proof.Machine.execFence sc s
  | .sigadd sc xd xa xb => Sys2Proof.Machine.execSigadd sc xd xa xb s
  | .sigst sc xa xb => Sys2Proof.Machine.execSigst sc xa xb s
  | .sigwait c sc xd xa xb => Sys2Proof.Machine.execSigwait c sc xd xa xb s
  | .sigwaitPollTimer ctx => Sys2Proof.Machine.execSigwaitPollTimer ctx s
  | .enq xd xa slma => Sys2Proof.Machine.execEnq xd xa slma s
  | .yield => Sys2Proof.Machine.execYield s
  | .trap code => Sys2Proof.Machine.execTrap code s
  | .mbox xd xa xb => Sys2Proof.Machine.execMbox xd xa xb s
  | .mboxReply xa xb => Sys2Proof.Machine.execMboxReply xa xb s
  | .eretReplay xd xa => Sys2Proof.Machine.execEretReplay xd xa s
  | .eretSkip xd xa => Sys2Proof.Machine.execEretSkip xd xa s
  | .rrfillRetry xd xa => Sys2Proof.Machine.execRrfillRetry xd xa s
  | .rrfillData xd xa xb => Sys2Proof.Machine.execRrfillData xd xa xb s
  | .felog sel clr xd xe => Sys2Proof.Machine.execFelog sel clr xd xe s
  | .mstat sel clr xd => Sys2Proof.Machine.execMstat sel clr xd s
  | .sysrd xd addr => Sys2Proof.Machine.execSysrd xd addr s
  | .syswr xa addr => Sys2Proof.Machine.execSyswr xa addr s
  | .rdv tag => Sys2Proof.Machine.execRdv tag s
  | .red op xd dc => Sys2Proof.Machine.execRed op xd dc s
  | .mask a => Sys2Proof.Machine.execMask a s
  | .perm a => Sys2Proof.Machine.execPerm a s
  | .permVault a => Sys2Proof.Machine.execPermVault a s
  | .permLockstep ctx => Sys2Proof.Machine.execPermLockstep ctx s
  | .permDataWrite ctx => Sys2Proof.Machine.execPermDataWrite ctx s
  | .coll xd tout tin slma => Sys2Proof.Machine.execColl xd tout tin slma s
  | .cwait xd xa => Sys2Proof.Machine.execCwait xd xa s
  | .cwaitTest xd xa => Sys2Proof.Machine.execCwaitTest xd xa s
  | .ccancel xd xa => Sys2Proof.Machine.execCcancel xd xa s
  | .responseReport ctx => Sys2Proof.Machine.execResponseReport ctx s
  | .segmentCommit ctx => Sys2Proof.Machine.execSegmentCommit ctx s
  | .faultedDieRestore die => Sys2Proof.Machine.execFaultedDieRestore die s
  | .replayResend ctx => Sys2Proof.Machine.execReplayResend ctx s
  | .linkRetransmit ctx failures bank => Sys2Proof.Machine.execLinkRetransmit ctx failures bank s
  | .faultFlagArrival ctx => Sys2Proof.Machine.execFaultFlagArrival ctx s
  | .stopArrival die => Sys2Proof.Machine.execStopArrival die s
  | .contextFrozen ctx => Sys2Proof.Machine.execContextFrozen ctx s
  | .detachedCopyComplete die idx => Sys2Proof.Machine.execDetachedCopyComplete die idx s
  | .contextSaveComplete ctx => Sys2Proof.Machine.execContextSaveComplete ctx s
  | .contextStopped ctx => Sys2Proof.Machine.execContextStopped ctx s
  | .doorbell q v => Sys2Proof.Machine.execDoorbell q v s
  | .queueMapWaiting => Sys2Proof.Machine.execQueueMapWaiting s
  | .berthIdleTimeout b => Sys2Proof.Machine.execBerthIdleTimeout b s
  | .packetFetch b => Sys2Proof.Machine.execPacketFetch b s
  | .dispatchDecision => Sys2Proof.Machine.execDispatchDecision s
  | .berthClassPromote b => Sys2Proof.Machine.execBerthClassPromote b s
  | .nop h => Sys2Proof.Machine.execNop h s
  | .launch h p => Sys2Proof.Machine.execLaunch h p s
  | .gang h p => Sys2Proof.Machine.execGang h p s
  | .partitionObtained task => Sys2Proof.Machine.execPartitionObtained task s
  | .gangReserveTimeout task => Sys2Proof.Machine.execGangReserveTimeout task s
  | .graph h gaddr nnode => Sys2Proof.Machine.execGraph h gaddr nnode s
  | .graphNodeDispatch => Sys2Proof.Machine.execGraphNodeDispatch s
  | .barrier h p => Sys2Proof.Machine.execBarrier h p s
  | .barrierPollTimer b => Sys2Proof.Machine.execBarrierPollTimer b s
  | .signal h saddr store sval => Sys2Proof.Machine.execSignal h saddr store sval s
  | .copy h p => Sys2Proof.Machine.execCopy h p s
  | .copyPacketComplete task => Sys2Proof.Machine.execCopyPacketComplete task s
  | .indirect h iaddr icount => Sys2Proof.Machine.execIndirect h iaddr icount s
  | .loopPacket h passes lcount => Sys2Proof.Machine.execLoopPacket h passes lcount s
  | .pred h p => Sys2Proof.Machine.execPred h p s
  | .fetchfence h => Sys2Proof.Machine.execFetchfence h s
  | .event h payload => Sys2Proof.Machine.execEvent h payload s
  | .phase h => Sys2Proof.Machine.execPhase h s
  | .cancel h ctag lvl kill => Sys2Proof.Machine.execCancel h ctag lvl kill s
  | .timestamp h taddr => Sys2Proof.Machine.execTimestamp h taddr s
  | .launchDrained ctx => Sys2Proof.Machine.execLaunchDrained ctx s
  | .launchCompletion ctx => Sys2Proof.Machine.execLaunchCompletion ctx s
  | .eventRingSpace part => Sys2Proof.Machine.execEventRingSpace part s
  | .eventRingIrqCount part => Sys2Proof.Machine.execEventRingIrqCount part s
  | .eventRingIrqTimeout part => Sys2Proof.Machine.execEventRingIrqTimeout part s
  | .specRunStart b => Sys2Proof.Machine.execSpecRunStart b s
  | .specDiscardComplete ctx => Sys2Proof.Machine.execSpecDiscardComplete ctx s
  | .cxlMemWrite pa bytes => Sys2Proof.Machine.execCxlMemWrite pa bytes s
  | .cxlMemRead pa len => Sys2Proof.Machine.execCxlMemRead pa len s
  | .storeAck port dest n => Sys2Proof.Machine.execStoreAck port dest n s
  | .accessionRequest ctx idx => Sys2Proof.Machine.execAccessionRequest ctx idx s
  | .accessionAssign job gid seq => Sys2Proof.Machine.execAccessionAssign job gid seq s
  | .grantArrival job gid seq a => Sys2Proof.Machine.execGrantArrival job gid seq a s
  | .accessionLive job gid seq remote => Sys2Proof.Machine.execAccessionLive job gid seq remote s
  | .collectiveComplete key remote fault others => Sys2Proof.Machine.execCollectiveComplete key remote fault others s
  | .cancelDecision key verdict ep => Sys2Proof.Machine.execCancelDecision key verdict ep s
  | .backupAck n => Sys2Proof.Machine.execBackupAck n s
  | .registrarHeartbeat => Sys2Proof.Machine.execRegistrarHeartbeat s
  | .registrarFailover => Sys2Proof.Machine.execRegistrarFailover s
  | .epochAnnounce epoch => Sys2Proof.Machine.execEpochAnnounce epoch s
  | .svccmdKill p => Sys2Proof.Machine.execSvccmdKill p s
  | .svccmdPreempt p => Sys2Proof.Machine.execSvccmdPreempt p s
  | .svccmdRestore p => Sys2Proof.Machine.execSvccmdRestore p s
  | .xinv w => Sys2Proof.Machine.execXinv w s
  | .xinvComplete => Sys2Proof.Machine.execXinvComplete s
  | .trappendW1c hi w => Sys2Proof.Machine.execTrappendW1c hi w s
  | .erbclr w => Sys2Proof.Machine.execErbclr w s
  | .clkctlWrite w => Sys2Proof.Machine.execClkctlWrite w s
  | .clockRatioSwitch => Sys2Proof.Machine.execClockRatioSwitch s
  | .pmodeWrite w => Sys2Proof.Machine.execPmodeWrite w s
  | .pjobWrite w => Sys2Proof.Machine.execPjobWrite w s
  | .registerWrite addr w => Sys2Proof.Machine.execRegisterWrite addr w s
  | .bootgo w => Sys2Proof.Machine.execBootgo w s
  | .imageVerifyDone => Sys2Proof.Machine.execImageVerifyDone s
  | .memoryPortLinkTrain p cap => Sys2Proof.Machine.execMemoryPortLinkTrain p cap s
  | .memoryPortLinkDown p => Sys2Proof.Machine.execMemoryPortLinkDown p s
  | .attestationRequest nonce => Sys2Proof.Machine.execAttestationRequest nonce s
  | .verticalBusRepair die bank => Sys2Proof.Machine.execVerticalBusRepair die bank s
  | .moduleReset => Sys2Proof.Machine.execModuleReset s
  | .powerRemoval => Sys2Proof.Machine.execPowerRemoval s
  | .throttlePoint => Sys2Proof.Machine.execThrottlePoint s
  | .thermalTrip => Sys2Proof.Machine.execThermalTrip s
  | .throttlePulseRemoval ctx => Sys2Proof.Machine.execThrottlePulseRemoval ctx s
  | .cacheLineDrop die pa => Sys2Proof.Machine.execCacheLineDrop die pa s
  | .storedError e kind syndrome => Sys2Proof.Machine.execStoredError e kind syndrome s
  | .vyivoLinkDown l => Sys2Proof.Machine.execVyivoLinkDown l s
  | .hostPortLinkDown => Sys2Proof.Machine.execHostPortLinkDown s
  | .hotClear => Sys2Proof.Machine.execHotClear s
  | .jobClose job => Sys2Proof.Machine.execJobClose job s
  | .groupCreate job gid members => Sys2Proof.Machine.execGroupCreate job gid members s
  | .backupRegistrarDesignate mid => Sys2Proof.Machine.execBackupRegistrarDesignate mid s
  | .jobWideRegionSet job entry e => Sys2Proof.Machine.execJobWideRegionSet job entry e s

end Sys2Proof.Machine
end

