-- ==== Sys2Proof/Machine/Sched.lean ====
section
/-! DEFINITION. The schedule of the model (log 2): what a step does when nothing has been asked for, the end of a step, and the placing of a
bundle where a context fetches. -/

namespace Sys2Proof.Machine

/-- One act for each place of a list. -/
def each {α : Type} (l : List α) (f : Nat → Instr) : List Act := (upto l.length).map fun i => .ev (f i)

/-- The steps of a context that the machine takes by itself. -/
def ctxActs (c : Nat) (x : Ctx) : List Act :=
  .run c :: (each x.port (.globalLoadReturn c) ++ each x.port (.storePerformed (.seq c)) ++
    x.wire.map (fun e => .ev (.treePacketArrival c e.1)) ++ x.credits.map (fun d => .ev (.creditReturn c d)) ++
    each x.colls (.accessionRequest c) ++
    [.ev (.responseReport c), .ev (.segmentCommit c), .ev (.replayResend c), .ev (.faultFlagArrival c), .ev (.contextFrozen c),
     .ev (.contextStopped c), .ev (.contextSaveComplete c), .ev (.permLockstep c), .ev (.permDataWrite c), .ev (.sigwaitPollTimer c),
     .ev (.launchDrained c), .ev (.launchCompletion c), .ev (.specDiscardComplete c)])

/-- The steps of a die that the machine takes by itself. -/
def dieActs (d : Nat) (y : Die) : List Act :=
  .ev (.dieBundleIssue d) :: (each y.flights (.vectorResultWrite d) ++ each (y.flights.map (·.bsn) ++ y.gq.map (·.bsn)) (.loadDataReturn d) ++
    each y.gq (.storePerformed (.die d)) ++ each y.rq (.remoteVaultReply d) ++
    (y.gq.filter GAcc.walking).map (fun a => .ev (.translationWalkComplete d (a.va / 65536))) ++
    each y.mmuls (.mmulRowDrain d) ++ each y.cmds (.fillStart d) ++ each y.cmds (.cmcastReadStart d) ++
    each y.cmds (.copyFillComplete d) ++ each y.cmds (.copyDrainComplete d) ++ each y.cmds (.cflushComplete d) ++
    each y.cmds (.detachedCopyComplete d) ++ [.ev (.mldsComplete d), .ev (.stopArrival d), .ev (.faultedDieRestore d)])

/-- The steps of the Registrar's instances on this module, and of the accessions of module-local groups and of LIVE ones: what a pod-wide group
needs of other modules comes with their messages, from outside (R426 to R430). -/
def State.regActs (s : State) : List Act :=
  let ep := s.regr.epoch
  (s.issuers.filter fun w => 256 ≤ w).map (fun w => .ev (.accessionRequest w 0)) ++
    s.regr.asks.map (fun k => .ev (.accessionAssign k.1 k.2.1 k.2.2)) ++
    ((s.regr.accs.filter fun a => s.serves a && a.st != .unassigned && !a.arrived).map fun a =>
      .ev (.grantArrival a.job a.gid a.seq ⟨a.num.toNat, ep⟩)) ++
    ((s.regr.accs.filter fun a => s.accLocal a || a.st == .live).flatMap fun a =>
      [.ev (.accessionLive a.job a.gid a.seq ⟨[], ep⟩), .ev (.collectiveComplete ⟨a.job, a.gid, a.seq⟩ [] false [])]) ++
    s.ctxs.flatMap fun e =>
      (e.2.cancels.filter fun q => s.servesKey (lJob e.2.lrec).toNat q.gid).map fun q =>
        .ev (.cancelDecision ⟨(lJob e.2.lrec).toNat, q.gid, q.seq⟩ none ep)

/-- The steps of the Landing and the bollard units. -/
def State.landActs (s : State) : List Act :=
  s.berths.flatMap (fun e => [.ev (.packetFetch e.1), .ev (.berthClassPromote e.1), .ev (.specRunStart e.1)]) ++
    s.tasks.flatMap (fun e => [.ev (.partitionObtained e.1), .ev (.copyPacketComplete e.1), .ev (.barrierPollTimer e.2.berth)]) ++
    s.bollards.flatMap (fun e => .ev (.bollardGrant e.1) :: .ev (.bollardWriteback e.1) ::
      s.ctxs.map fun c => .ev (.bollardRelease e.1 c.1)) ++
    s.parts.flatMap (fun e => [.ev (.eventRingSpace e.1), .ev (.eventRingIrqCount e.1)]) ++
    [.ev .queueMapWaiting, .ev .dispatchDecision, .ev .graphNodeDispatch, .ev .clockRatioSwitch, .ev .xinvComplete]

/-- Everything that the machine may do by itself. -/
def State.acts (s : State) : List Act :=
  match s.boot with
  | .reset => [.ev .moduleReset]
  | .verify => [.ev .imageVerifyDone]
  | _ => s.ctxs.flatMap (fun e => ctxActs e.1 e.2) ++ s.dies.flatMap (fun e => dieActs e.1 e.2) ++ s.landActs ++ s.regActs

/-- The next act: the agenda's head, else the acts of the machine in turn; none when there is nothing to do. -/
def State.nextAct (s : State) : Option Act × State :=
  match s.agenda with
  | a :: r => (some a, { s with agenda := r })
  | [] => (s.acts[s.stepNo % s.acts.length]?, s)

/-- The end of a step from `s`: it counts, a change of MSTATUS raises its interrupt (R439), and a message wakes the purser pair (R358). -/
def State.endStep (s t : State) : State := { s.noteStatus (s.wakePurser t) with stepNo := s.stepNo + 1 }

/-! ### Placing a bundle (log 2) -/

/-- Where a context's next fetch reads memory. -/
def State.fetchAddr (s : State) (c : Nat) : Option Nat :=
  if s.mayIssue c && !(s.ctx c).mismatch then
    match s.translate (s.ctx c).tlb (s.ctxXlat c) .fetch true (s.ctx c).pc.toNat with
    | .ok (pa, _) => some pa
    | .error _ => none
  else none

/-- The bytes of a bundle stand where a context fetches, no stale line or poison before them, and it runs next. -/
def State.putBundle (s : State) (c pa w : Nat) : State :=
  let s1 := { s.memWr pa 64 w with poison := s.poison.filter fun l => l != pa / 64, agenda := [.run c] }
  s1.updCtx c fun x => { x with icache := x.icache.filter fun e => e.1 != x.pc.toNat }

/-- A running launch on context 0 whose tables map its PC: the load of a program from outside (log 2). -/
def State.loaded (s : State) : State :=
  let x : Ctx := { Ctx.reset with lst := .running, pc := 0x20000 }
  let s1 := (s.memWr 0 8 0x10001).memWr 0x10000 8 0x1F
  (s1.updJob 0 fun j => { j with xroot := 0 }).setCtx 0 { x with seg := { Seg.reset with ckpt := some x.checkpoint } }

/-- A bundle at the next fetch: of the first context that issues, else of a launch loaded for it. -/
def State.placeWord (s : State) (w : Nat) : State :=
  match s.ctxs.findSome? fun e => (s.fetchAddr e.1).map fun pa => (e.1, pa) with
  | some (c, pa) => s.putBundle c pa w
  | none => s.loaded.putBundle 0 0x20000 w

end Sys2Proof.Machine
end

