-- ==== Sys2Proof/Machine/Step.lean ====
section
/-! DEFINITION. One step of the module: the next act, an instruction of the table or the next bundle of a context (log 2). -/

namespace Sys2Proof.Machine

/-- An act of the schedule. -/
def runAct (a : Act) (s : State) : Host.Outcome State Fault Refusal :=
  match a with
  | .ev i => exec i s
  | .run c => .next (s.bundle c)
  | .preempt c => .next (s.landPreempt c)

/-- The end of a step from `s` on its outcome. -/
def finish (s : State) (o : Host.Outcome State Fault Refusal) : Host.Outcome State Fault Refusal :=
  match o with
  | .next t => .next (s.endStep t)
  | .fault f => .fault f
  | .refused r => .refused r

/-- One step of the module. -/
def step (s : State) : Host.Outcome State Fault Refusal :=
  match s.nextAct with
  | (some a, t) => finish s (runAct a t)
  | (none, t) => .next (s.endStep t)

/-- The state with a bundle's bits placed where the next step fetches, and that context's bundle next. -/
def State.withFetchWord (s : State) (_nbits w : Nat) : State := s.placeWord w

end Sys2Proof.Machine
end

