-- ==== Sys2Proof/Safety.lean ====
section
/-! DEFINITION. What a safe step is: one that answers a next state; and the canonical form of memory. -/

namespace Sys2Proof.Machine

/-- A memory is in its canonical form: addresses strictly rising, and no listed byte equal to what an unlisted one reads as (log 1). -/
def Memory.wf (m : List Host.Cell) : Bool := Tbl.wfFrom 0 0 m

end Sys2Proof.Machine

namespace Sys2Proof.Safety

open Sys2Proof.Machine

/-- The step of a state neither faults nor refuses. -/
def stepSafe (s : State) : Prop := ∃ t, step s = .next t

end Sys2Proof.Safety
end

