-- ==== Sys2Proof/Certificates/Slice0/Obligations.lean ====
section
/-! DEFINITION. The statements for the provers. `Sys2Proof.Claim` holds the words they share: frames and readings of a state. -/

namespace Sys2Proof.Claim

open Sys2Proof.Machine

/-- The outcome is a next state that meets a condition. -/
def Goes (o : Host.Outcome State Fault Refusal) (p : State → Prop) : Prop := ∃ t, o = .next t ∧ p t

/-- Only the context of the bundle in progress changed, among all that State holds; every byte of memory reads as before. -/
def OnlyCtx (s t : State) : Prop :=
  t = { s with ctxs := t.ctxs } ∧ (∀ c, c ≠ s.cur.ctx → t.ctx c = s.ctx c) ∧ ∀ a, t.memByte a = s.memByte a

/-- Of that context, only the scalar registers and predicates changed. -/
def OnlyScalars (s t : State) : Prop := OnlyCtx s t ∧ t.cx = { s.cx with sc := t.cx.sc }

/-- The low n bytes of v stand at address a, lowest first, and every other byte of memory reads as before. -/
def Stored (s t : State) (a n v : Nat) : Prop :=
  (∀ k, k < n → t.memByte (a + k) = BitVec.ofNat 8 (v / 256 ^ k)) ∧
    ∀ b, (b < a ∨ a + n ≤ b) → t.memByte b = s.memByte b

/-- The n bytes from place a on as a number, lowest first (R2). -/
def bytes (rd : Nat → Byte) (a : Nat) : Nat → Nat
  | 0 => 0
  | n + 1 => (rd a).toNat + 256 * bytes rd (a + 1) n

/-- The n bytes of memory at a as a number. -/
def loaded (s : State) (a n : Nat) : Nat := bytes s.memByte a n

/-- The range is plain memory: outside the doorbell window and on no port whose link is down. -/
def Plain (s : State) (a n : Nat) : Prop :=
  ∀ k, k < n → isBell (a + k) = false ∧ ∀ p, portOf (a + k) = some p → s.portsDown.contains p = false

/-- The S-slot instructions whose whole effect is a register or a predicate. -/
def scalarOp : Instr → Bool
  | .add .. | .sub .. | .mul .. | .mulh .. | .mulhn .. | .div .. | .divn .. | .rem .. | .remn .. | .and .. | .or ..
  | .xor .. | .shl .. | .shr .. | .sra .. | .min .. | .max .. | .minn .. | .maxn .. | .clz .. | .popc .. | .addi ..
  | .andi .. | .ori .. | .xori .. | .shiShl .. | .shiShr .. | .shiSra .. | .li .. | .lih .. | .cmp .. | .cmpi ..
  | .sel .. | .movqGet .. | .movqSet .. | .movqGetall .. | .movqSetall .. | .qop .. | .fadd .. | .fsub .. | .fmul ..
  | .ffma .. | .fcmp .. | .fcvt .. => true
  | _ => false

/-- The register that such an instruction names as its destination. -/
def xDest : Instr → Option Reg
  | .add d _ _ | .sub d _ _ | .mul d _ _ | .mulh d _ _ | .mulhn d _ _ | .div d _ _ | .divn d _ _ | .rem d _ _
  | .remn d _ _ | .and d _ _ | .or d _ _ | .xor d _ _ | .shl d _ _ | .shr d _ _ | .sra d _ _ | .min d _ _ | .max d _ _
  | .minn d _ _ | .maxn d _ _ | .clz d _ | .popc d _ | .addi d _ _ | .andi d _ _ | .ori d _ _ | .xori d _ _
  | .shiShl d _ _ | .shiShr d _ _ | .shiSra d _ _ | .li d _ | .lih d _ | .sel d _ _ _ _ | .movqGet d _ | .movqGetall d
  | .fadd _ d _ _ | .fsub _ d _ _ | .fmul _ d _ _ | .ffma _ _ d _ _ _ | .fcvt _ _ _ d _ => some d
  | _ => none

/-- It names a predicate as a destination. -/
def qDest (i : Instr) (q : QIdx) : Bool :=
  match i with
  | .cmp d _ _ _ => q == d
  | .cmpi d _ _ _ => q == d
  | .movqSet d _ => q == d
  | .qop _ d _ _ => q == d
  | .fcmp _ d _ _ => q == d
  | .movqSetall _ => true
  | _ => false

/-! ### Vector results -/

/-- A lane takes part in a slot: its quadrant is enabled and PG is true in it (R122, R143). -/
def Active (s : State) (pg : PIdx) (pos : Nat) : Bool := s.dsrc.on pos && s.dsrc.predAt pg (s.laneAt pos)

/-- A result of a type in a destination of another width: its low bits, or its extension, by sign for S types (R128, R129). -/
def widen (ty : ETy) (w : Width) (n : Nat) : Nat :=
  if w.bits ≤ ty.bits then n % 2 ^ w.bits
  else if ty.isS && decide (2 ^ (ty.bits - 1) ≤ n) then n + 2 ^ w.bits - 2 ^ ty.bits
  else n

/-- The same of an integer result, which wraps at the width of its type (R34). -/
def narrow (ty : ETy) (w : Width) (r : Int) : Nat := widen ty w (r % (2 ^ ty.bits : Nat)).toNat

/-- A source operand at an integer type, as an integer. -/
def elem (s : State) (ty : ETy) (o : Opnd) (pos : Nat) (l : Lane) : Int := tval ty (s.val ty o pos l)

/-- The die of the slot in progress has one more result in flight; no register, predicate, token, tile or byte of memory changes, and no other
die: beside the result, only the writers that the scoreboard names and the bundle's claims do. -/
def Flies (s t : State) (f : Flight) : Prop :=
  t = { s with dies := t.dies, cur := { s.cur with claimed := (s.cur.slot, f.lanes) :: s.cur.claimed } } ∧
    (∀ d, d ≠ s.cur.die → t.die d = s.die d) ∧ t.dx = { s.dx with flights := s.dx.flights ++ [f], lastw := t.dx.lastw } ∧
    f.slot = s.cur.slot ∧ f.qm = s.dsrc.qmask ∧ f.bsn = s.pbsn ∧ f.addr = s.paddr

/-- An instruction sends a result to slices: in each lane that takes part, the value that v gives there; in every other lane, nothing. -/
def SendsValue (i : Instr) (s : State) (pg : PIdx) (ps : List Nat) (v : Nat → Lane → Nat) (more : Flight → Prop) : Prop :=
  Goes (exec i s) fun t => ∃ f, Flies s t f ∧ f.load = false ∧ f.ws = sliceSet ps ∧ f.pw = 0 ∧ f.dcs = [] ∧
    f.lanes.length = s.dsrc.lanes.length ∧
    (∀ pos, pos < s.dsrc.lanes.length →
      f.lanes.getD pos {} = if Active s pg pos then putSlices ps (v pos (s.laneAt pos)) else {}) ∧ more f

/-- The result's events of one kind: in a quadrant, if a lane of it that takes part raised one (R60). -/
def Raised (s : State) (pg : PIdx) (e : Nat → Lane → Ev) (f : Flight) (k : Ev → Bool) : Prop :=
  ∀ q, (∃ x, (q, x) ∈ f.evs ∧ k x = true) ↔
    q < 4 ∧ ∃ pos, pos < s.dsrc.lanes.length ∧ pos / 1024 = q ∧ Active s pg pos = true ∧ k (e pos (s.laneAt pos)) = true

/-- An instruction sends values and their events. -/
def Sends (i : Instr) (s : State) (pg : PIdx) (ps : List Nat) (v : Nat → Lane → Nat) (e : Nat → Lane → Ev) : Prop :=
  SendsValue i s pg ps v fun f => Raised s pg e f (·.inv) ∧ Raised s pg e f (·.dz) ∧ Raised s pg e f (·.ovf) ∧ Raised s pg e f (·.unf)

/-- An instruction sends values and logs nothing. -/
def SendsQuiet (i : Instr) (s : State) (pg : PIdx) (ps : List Nat) (v : Nat → Lane → Nat) : Prop :=
  SendsValue i s pg ps v fun f => f.evs = []

/-- An instruction sends a predicate: in each lane that takes part, what b gives there. -/
def SendsPred (i : Instr) (s : State) (pg pd : PIdx) (b : Nat → Lane → Bool) : Prop :=
  let p := renP s.dsrc.prb pd
  Goes (exec i s) fun t => ∃ f, Flies s t f ∧ f.load = false ∧ f.ws = 0 ∧ f.dcs = [] ∧ f.evs = [] ∧ f.lanes.length = s.dsrc.lanes.length ∧
    ∀ pos, pos < s.dsrc.lanes.length →
      f.lanes.getD pos {} = if Active s pg pos then putPred p (b pos (s.laneAt pos)) else {}

/-- The fixed pairwise order of a sum of 2^n terms: term j and term j + d, for d from 2^(n−1) down to 1 (R165). -/
def pairwise (f : Nat → Nat → Nat) : Nat → (Nat → Nat) → Nat
  | 0, v => v 0
  | n + 1, v => pairwise f n fun j => f (v j) (v (j + 2 ^ n))

/-- A load's data are on their way: in each lane that takes part, the value that v gives there. -/
def Loads (i : Instr) (s : State) (pg : PIdx) (ps : List Nat) (v : Nat → Nat) : Prop :=
  Goes (exec i s) fun t => ∃ f, Flies s t f ∧ f.load = true ∧ f.ws = sliceSet ps ∧ f.pw = 0 ∧ f.dcs = [] ∧ f.evs = [] ∧
    ∀ pos, pos < s.dsrc.lanes.length → f.lanes.getD pos {} = if Active s pg pos then putSlices ps (v pos) else {}

/-- The lanes that take part, in lane order. -/
def actives (s : State) (pg : PIdx) : List Nat := (List.range s.dsrc.lanes.length).filter (Active s pg)

/-- The scoreboards of vertical transfers have room for a load of these lanes (R204, R221): in each quadrant one entry for each line of 128 bytes
that the lanes name, no more than there are, beside those that its bundle holds, with what the outstanding loads of other bundles hold. -/
abbrev RoomFor (s : State) (l : List Nat) (at' : Nat → Nat) : Prop :=
  ∀ q, q < 4 →
    min 256 (min 256 ((l.filter fun pos => pos / 1024 == q).map fun pos => at' pos / 128).eraseDups.length + s.dx.tagsHeld s.pbsn q) +
      ((s.dx.loading.filter fun b => b != s.pbsn).map fun b => s.dx.tagsHeld b q).sum ≤ 256

/-- The address of a lane (R223): X[XA] plus the index, read as unsigned 32 bits and shifted, plus the signed offset, exactly. -/
def laneAt (s : State) (xa : Reg) (sc : BitVec 3) (vi : Opnd) (off : Int) (pos : Nat) : Int :=
  (s.px xa).toNat + (s.val .n32 vi pos (s.laneAt pos) : Int) * 2 ^ sc.toNat + off

/-- Only the die of the slot in progress changed, in the ways that y allows. -/
def OnlyDie (s t : State) (y : Die → Prop) : Prop :=
  t = { s with dies := t.dies } ∧ (∀ d, d ≠ s.cur.die → t.die d = s.die d) ∧ y t.dx

/-- Only die d changed. -/
def OnlyDieAt (s t : State) (d : Nat) : Prop := t = { s with dies := t.dies } ∧ ∀ e, e ≠ d → t.die e = s.die e


/-- A register waits for the result of the bundle of BSN b; x0 never does (R19). -/
def pendAlso (n : Reg) (b : BitVec 48) (l : List (Reg × BitVec 48)) : List (Reg × BitVec 48) := if n = 0 then l else (n, b) :: l

/-- The segment of a context cannot be repeated any more (R385). -/
def noRepeat (x : Ctx) : Ctx := { x with seg := { x.seg with unrep := true } }

/-- At the sequencer, an instruction starts an operation that gathers the reports of the dies, and changes its context as told. -/
def Gathers (i : Instr) (s : State) (k : GKind) (ports : List (Nat × Nat × Nat)) (f : Ctx → Ctx) : Prop :=
  Goes (exec i s) fun t => OnlyCtx s t ∧
    t.cx = { f s.cx with gathers := s.cx.gathers ++ [{ bsn := s.cx.bsn, kind := k, dies := s.reporters, rm := s.cx.rm, goc := s.cx.goc, ports := ports }] }

/-- At a die, an instruction of a gathering operation reports, once, with this term, for the accesses numbered below a limit. -/
def Reports (i : Instr) (s : State) (limit : Nat) (term : W64) (log : List FeLog) : Prop :=
  ∀ c, s.driver s.cur.die = some c → ((s.ctx c).gathers.any fun g => g.bsn == s.pbsn && g.dies.contains s.cur.die) = true →
    Goes (exec i s) fun t => OnlyDie s t fun z => z = { s.dx with reps := s.dx.reps ++ [⟨s.pbsn, limit, true, term, 0, log⟩] }

/-- A context's register takes the result of the bundle of BSN b while it waits for it, and keeps what a later bundle has written; it waits
for that bundle no more (R19, R115). Among the scalar words in the record of a trapped bundle it takes its place as it arrives (R78, R356). -/
def Delivered (s t : State) (c : Nat) (xd : Reg) (b : BitVec 48) (v : W64) : Prop :=
  (t.ctx c).sc = (if (s.ctx c).pendX.contains (xd, b) then (s.ctx c).sc.setX xd v else (s.ctx c).sc) ∧
    (t.ctx c).pendX = (s.ctx c).pendX.erase (xd, b) ∧
    let r := (s.ctx c).fcr
    (t.ctx c).fcr = if (s.ctx c).pendX.contains (xd, b) = true ∧ (s.ctx c).frozen = true ∧ r.scr ≠ [] then
      { r with scw := (r.scw.zip r.scr).map fun e => if e.2 = xd then v else e.1 } else r

/-- The word at a berth's RDPTR: the address that its translation gives, whatever the word holds. -/
def RdWord (s : State) (b : Berth) (pr : Nat) : Prop :=
  s.translateCold (s.jobXlat b.job) .store b.rdptr = .ok pr ∧
    ∀ v, (s.memWr pr 8 v).translateCold (s.jobXlat b.job) .store b.rdptr = .ok pr

/-- The completion of every job that Cimus has closed is recorded. -/
def JobsReported (s : State) : Prop := ∀ e ∈ s.jobs, e.2.closed = true → e.2.reported = true

/-- The one berth of the module dispatches from its ring, outside every LOOP, with no task outstanding and no job about to complete, and the
packet has neither a signal nor a record. -/
def Dispatching (s : State) (b : Berth) (f : Frame) (h : PHdr) (pr : Nat) : Prop :=
  s.berths = [(s.cur.berth, b)] ∧ b.barrier = none ∧ b.frames = [f] ∧ f.buf = none ∧ f.loop = none ∧ s.tasks = [] ∧
    (∀ e ∈ s.ctxs, e.2.spec = none) ∧ h.csig = 0 ∧ h.crec = false ∧ RdWord s b pr ∧ JobsReported s

/-- A word at pa, which a packet reaches by k at va, lies apart from the word at RDPTR, and stores to the two words change neither translation. -/
def TwoWords (s : State) (b : Berth) (pr : Nat) (k : AccK) (va pa : Nat) : Prop :=
  (pa + 8 ≤ pr ∨ pr + 8 ≤ pa) ∧ Plain s pa 8 ∧ s.poisonIn pa 8 = false ∧ s.translateCold (s.jobXlat b.job) k va = .ok pa ∧
    ∀ v w, (s.memWr pr 8 v).translateCold (s.jobXlat b.job) k va = .ok pa ∧
      (s.memWr pa 8 w).translateCold (s.jobXlat b.job) .store b.rdptr = .ok pr ∧
      ((s.memWr pr 8 v).memWr pa 8 w).translateCold (s.jobXlat b.job) .store b.rdptr = .ok pr

/-- The berth has one frame, and no byte of memory changed but those of the word at its RDPTR. -/
def Moved (s t : State) (b : Berth) (fs : List Frame) (pr : Nat) : Prop :=
  (∃ x, t.berths = [(s.cur.berth, x)] ∧ x.frames = fs ∧ x.queue = b.queue ∧ x.wr = b.wr ∧ x.barrier = none ∧ x.curCls = b.cls ∧ x.passed = 0) ∧
    ∀ a, (a < pr ∨ pr + 8 ≤ a) → t.memByte a = s.memByte a

/-- A context at the entry of a launch (R7, R9, R10, R13, R31, R45). -/
def Entered (x : Ctx) (p : Prep) (part : Nat) : Prop :=
  x.lst = .entry ∧ x.frozen = false ∧ x.pc = p.entry ∧ x.bsn = 0 ∧ x.loops = [] ∧ x.rm = 0 ∧ x.port = [] ∧ x.goc = 0 ∧
    (∀ n, x.sc.getX n = if n = 1 then 0x40 else 0) ∧ (∀ q, x.sc.getQ q = (q == 0)) ∧
    lPart x.lrec = part ∧ lEntry x.lrec = p.entry ∧ (∀ i, i < 256 → x.slmByte (0x40 + i) = p.args.getD i 0)

/-- A die at the entry of a launch (R124, R125, R259). -/
def FreshDie (y : Die) (p : Prep) : Prop :=
  (∀ l ∈ y.regs.lanes, (∀ n, l.slice n = 0) ∧ ∀ q, q < 16 → l.pred q = (q == 0)) ∧ y.regs.prb = 0 ∧ y.regs.dcs = List.replicate 4 0 ∧
    (∀ i, i < 8 → p.vdef.length = 8 → y.regs.views.getD i 0 = if p.vdmask.getLsbD i then p.vdef.getD i 0 else 0) ∧
    (∀ n, y.consts.getD n 0 = p.consts.getD n 0) ∧ (∀ t, y.pend t = false) ∧ y.tiles = [] ∧ y.queue = [] ∧ y.flights = []
end Sys2Proof.Claim

open Sys2Proof Sys2Proof.Machine Sys2Proof.Claim

/-! ### Encodings -/

/-- Words that the spec writes out decode to the instructions they stand for: `EXIT 0` (R120), `LIH x7, 0xDEADBEEF` (R103), `TWAIT tk9`
(R327), `FENCE.mod` (R329), `MASK x4, 0b0011` (R407), and the no-operation, whose PRESENT field is zero (R16). -/
def Obligations.SpecWordsDecode : Prop :=
  (decodeSlot 0 0x3E00000000000000).toOption = some (.exit 0) ∧
    (decodeSlot 0 0x1E1C0000DEADBEEF).toOption = some (.lih 7 0xDEADBEEF) ∧
    (decodeSlot 7 0x0124800000000000).toOption = some (.twait ⟨1, 9, 0, 0⟩) ∧
    (decodeSlot 7 0x04000000C0000000).toOption = some (.fence .mod) ∧
    (decodeSlot 7 0x2210C00000000000).toOption = some (.mask ⟨4, 3, false, false⟩) ∧
    decodeTableWord 512 0 = some .noOperation

/-- Decoding the field of a well-formed slot instruction gives the instruction back, with every operand at every value, in each slot that
may hold it. A bundle of one well-formed instruction decodes to that instruction in its slot, every header bit clear. -/
def Obligations.EncodingRoundTrip : Prop :=
   (∀ (i : Instr) (k : Nat), i.wf = true → k ∈ slotsOf i → decodeSlot k (encode i) = .ok i) ∧
   (∀ (i : Instr) (k : Nat), i.wf = true → k ∈ slotsOf i →
      decodeBundle (encodeSole k i) = .ok ⟨false, false, false, false, 0, [(k, i)]⟩)

/-- A field that decodes is the field of the instruction it gives, which is well formed and may stand in that slot: no two fields stand for
one instruction, and no bit is ignored. The same of the 64 bytes of a packet (R275). -/
def Obligations.DecodingSound : Prop :=
  (∀ (k : Nat) (f : SlotBits) (i : Instr), k < 8 → decodeSlot k f = .ok i → i.wf = true ∧ k ∈ slotsOf i ∧ encode i = f) ∧
    ∀ (p : BundleBits) (i : Instr), decodePacket p = some i → encodePacket i = p

/-! ### The S slot -/

/-- The integer register operations: XD takes the value of R98 to R100, and nothing else happens. -/
def Obligations.IntegerRegisterResults : Prop :=
  ∀ (s : State) (xd xa xb : Reg),
    let a := s.x xa
    let b := s.x xb
    let gives (i : Instr) (v : W64) : Prop := exec i s = .next (s.setX xd v)
    gives (.add xd xa xb) (a + b) ∧ gives (.sub xd xa xb) (a - b) ∧ gives (.mul xd xa xb) (a * b) ∧
      gives (.mulh xd xa xb) (BitVec.ofInt 64 (a.toInt * b.toInt / 2 ^ 64)) ∧
      gives (.mulhn xd xa xb) (BitVec.ofNat 64 (a.toNat * b.toNat / 2 ^ 64)) ∧
      gives (.div xd xa xb) (if b = 0 then BitVec.allOnes 64 else BitVec.ofInt 64 (a.toInt.tdiv b.toInt)) ∧
      gives (.divn xd xa xb) (if b = 0 then BitVec.allOnes 64 else BitVec.ofNat 64 (a.toNat / b.toNat)) ∧
      gives (.rem xd xa xb) (if b = 0 then a else BitVec.ofInt 64 (a.toInt.tmod b.toInt)) ∧
      gives (.remn xd xa xb) (if b = 0 then a else BitVec.ofNat 64 (a.toNat % b.toNat)) ∧
      gives (.and xd xa xb) (a &&& b) ∧ gives (.or xd xa xb) (a ||| b) ∧ gives (.xor xd xa xb) (a ^^^ b) ∧
      gives (.shl xd xa xb) (if 64 ≤ b.toNat then 0 else a <<< b.toNat) ∧
      gives (.shr xd xa xb) (if 64 ≤ b.toNat then 0 else a >>> b.toNat) ∧
      gives (.sra xd xa xb) (a.sshiftRight (min b.toNat 63)) ∧
      gives (.min xd xa xb) (if a.toInt ≤ b.toInt then a else b) ∧
      gives (.max xd xa xb) (if a.toInt ≤ b.toInt then b else a) ∧
      gives (.minn xd xa xb) (if a.toNat ≤ b.toNat then a else b) ∧
      gives (.maxn xd xa xb) (if a.toNat ≤ b.toNat then b else a) ∧
      gives (.popc xd xa) (BitVec.ofNat 64 ((List.range 64).filter fun i => a.getLsbD i).length) ∧
      ∃ n : Nat, gives (.clz xd xa) (BitVec.ofNat 64 n) ∧ n ≤ 64 ∧ (∀ i, 64 - n ≤ i → a.getLsbD i = false) ∧
        (n < 64 → a.getLsbD (63 - n) = true)

/-- The immediate forms (R101 to R103): the operand is the sign-extended immediate, the shift count the unsigned one; LI and LIH. Compares,
SEL and the moves between predicates and registers (R104 to R107). -/
def Obligations.ImmediateAndPredicateResults : Prop :=
   (∀ (s : State) (xd xa : Reg) (imm : BitVec 32) (wide : BitVec 50),
      let a := s.x xa
      let e := imm.signExtend 64
      let gives (i : Instr) (v : W64) : Prop := exec i s = .next (s.setX xd v)
      gives (.addi xd xa imm) (a + e) ∧ gives (.andi xd xa imm) (a &&& e) ∧ gives (.ori xd xa imm) (a ||| e) ∧
        gives (.xori xd xa imm) (a ^^^ e) ∧
        gives (.shiShl xd xa imm) (if 64 ≤ imm.toNat then 0 else a <<< imm.toNat) ∧
        gives (.shiShr xd xa imm) (if 64 ≤ imm.toNat then 0 else a >>> imm.toNat) ∧
        gives (.shiSra xd xa imm) (a.sshiftRight (min imm.toNat 63)) ∧
        gives (.li xd wide) (wide.signExtend 64) ∧
        gives (.lih xd imm) (imm ++ (s.x xd).setWidth 32 : BitVec 64)) ∧
   (∀ (s : State) (xd xa xb : Reg) (qd qa qb : QIdx) (imm : BitVec 32),
      let a := s.x xa
      let holds (c : Cond) (a b : W64) : Bool :=
        match c with
        | .eq => decide (a = b)
        | .ne => decide (a ≠ b)
        | .lt => decide (a.toInt < b.toInt)
        | .ge => decide (b.toInt ≤ a.toInt)
        | .ltn => decide (a.toNat < b.toNat)
        | .gen => decide (b.toNat ≤ a.toNat)
      let qfn (f : QFn) (p q : Bool) : Bool :=
        match f with
        | .and => p && q
        | .or => p || q
        | .xor => xor p q
        | .andn => p && !q
        | .orn => p || !q
        | .xnor => !xor p q
        | .not => !p
      (∀ c, exec (.cmp qd c xa xb) s = .next (s.setQ qd (holds c a (s.x xb)))) ∧
        (∀ c, exec (.cmpi qd c xa imm) s = .next (s.setQ qd (holds c a (imm.signExtend 64)))) ∧
        (∀ neg, exec (.sel xd qa neg xa xb) s = .next (s.setX xd (if xor (s.q qa) neg then a else s.x xb))) ∧
        exec (.movqGet xd qa) s = .next (s.setX xd (if s.q qa then 1 else 0)) ∧
        exec (.movqSet qd xa) s = .next (s.setQ qd (decide (a ≠ 0))) ∧
        (∃ v : W64, exec (.movqGetall xd) s = .next (s.setX xd v) ∧ v.getLsbD 0 = true ∧ (∀ i, 8 ≤ i → v.getLsbD i = false) ∧
          ∀ i, i < 8 → v.getLsbD i = s.q (BitVec.ofNat 3 i)) ∧
        Goes (exec (.movqSetall xa) s) (fun t => OnlyScalars s t ∧ t.cx.sc.x = s.cx.sc.x ∧
          ∀ i, 1 ≤ i → i < 8 → t.cx.sc.getQ (BitVec.ofNat 3 i) = a.getLsbD i) ∧
        ∀ f, exec (.qop f qd qa qb) s = .next (s.setQ qd (qfn f (s.q qa) (s.q qb))))

/-- FP32 in the S slot (R96, R108 to R110): the operands are bits 31:0, the result is zero-extended, each operation rounds once in the mode
of its field or, for DYN, in VCTL.RM as it was before the bundle, and no log is written (the next state differs in XD alone). A NaN operand
gives the canonical NaN (R40), 0 as an integer (R51), and among the relations only NE and UN hold for it; −0 equals +0 (R109). -/
def Obligations.ScalarFloatResults : Prop :=
  ∀ (s : State) (rm : Rnd) (xd xa xb xc : Reg) (qd : QIdx),
    let a := (s.x xa).toNat % 2 ^ 32
    let b := (s.x xb).toNat % 2 ^ 32
    let m : RM := match rm with
      | .rne => .rne
      | .rtz => .rtz
      | .rdn => .rdn
      | .rup => .rup
      | .dyn => RM.ofBits (s.cur.rm0.getD s.cx.rm)
    let gives (i : Instr) (v : Nat) : Prop := exec i s = .next (s.setX xd (BitVec.ofNat 64 v))
    gives (.fadd rm xd xa xb) (fAdd .fp32 m a b).1 ∧ gives (.fsub rm xd xa xb) (fSub .fp32 m a b).1 ∧
      gives (.fmul rm xd xa xb) (fMul .fp32 m a b).1 ∧
      (∀ sg, gives (.ffma sg rm xd xa xb xc) (fFma .fp32 m sg.negP sg.negC a b ((s.x xc).toNat % 2 ^ 32)).1) ∧
      (∀ sat,
        let h := (s.x xa).toNat % 2 ^ 16
        let cvt (k : FCvt) (v : Nat) : Prop := gives (.fcvt k sat rm xd xa) v
        cvt .s64fp32 (fToInt .fp32 m true 64 a).1 ∧ cvt .n64fp32 (fToInt .fp32 m false 64 a).1 ∧ cvt .n32fp32 (fToInt .fp32 m false 32 a).1 ∧
        exec (.fcvt .s32fp32 sat rm xd xa) s = .next (s.setX xd ((BitVec.ofNat 32 (fToInt .fp32 m true 32 a).1).signExtend 64)) ∧
        cvt .fp32s64 (intToF .fp32 m sat true 64 (s.x xa).toNat).1 ∧ cvt .fp32n64 (intToF .fp32 m sat false 64 (s.x xa).toNat).1 ∧
        cvt .bf16fp32 (fToF .fp32 .bf16 m sat a).1 ∧ cvt .fp16fp32 (fToF .fp32 .fp16 m sat a).1 ∧ cvt .fp32bf16 (fToF .bf16 .fp32 m sat h).1 ∧
        cvt .fp32fp16 (fToF .fp16 .fp32 m sat h).1) ∧
      (∀ (r : FRel) (v : VRel), (r, v) ∈ [(FRel.eq, VRel.eq), (.ne, .ne), (.lt, .lt), (.le, .le), (.un, .un)] →
        exec (.fcmp r qd xa xb) s = .next (s.setQ qd (fRel .fp32 v a b))) ∧
      (0x7F800000 < a % 2 ^ 31 ∨ 0x7F800000 < b % 2 ^ 31 →
        (∀ i ∈ [Instr.fadd rm xd xa xb, .fsub rm xd xa xb, .fmul rm xd xa xb, .ffma ⟨false, false⟩ rm xd xa xb xc], gives i 0x7FC00000) ∧
        (0x7F800000 < a % 2 ^ 31 → ∀ sat, gives (.fcvt .s64fp32 sat rm xd xa) 0 ∧ gives (.fcvt .bf16fp32 sat rm xd xa) 0x7FC0) ∧
        (∀ r : FRel, exec (.fcmp r qd xa xb) s = .next (s.setQ qd (r == .ne || r == .un)))) ∧
      (a % 2 ^ 31 = 0 → b % 2 ^ 31 = 0 → ∀ r : FRel, exec (.fcmp r qd xa xb) s = .next (s.setQ qd (r == .eq || r == .le)))

/-- The frame of every S-slot register instruction: it completes, and only its destination register and predicates may change. Writing a
register or a predicate: it reads as written, every other one as before; x0 reads as zero, q0 as true, and a write to either is discarded
(R7, R96). -/
def Obligations.ScalarFrame : Prop :=
   (∀ (i : Instr) (s : State), scalarOp i = true → Goes (exec i s) fun t => OnlyScalars s t ∧
      (∀ r, xDest i ≠ some r → t.cx.sc.getX r = s.cx.sc.getX r) ∧ ∀ q, qDest i q = false → t.cx.sc.getQ q = s.cx.sc.getQ q) ∧
   (∀ (s : State) (n m : Reg) (v : W64) (q p : QIdx) (b : Bool),
      (s.setX n v).cx.sc.getX m = (if m = 0 then 0 else if m = n then v else s.cx.sc.getX m) ∧
        (s.setX n v).cx.sc.getQ q = s.cx.sc.getQ q ∧
        (s.setQ q b).cx.sc.getQ p = (if p = 0 then true else if p = q then b else s.cx.sc.getQ p) ∧
        (s.setQ q b).cx.sc.getX m = s.cx.sc.getX m ∧
        OnlyScalars s (s.setX n v) ∧ OnlyScalars s (s.setQ q b))

/-- The memory is in its canonical form: addresses strictly rising, no listed byte zero (log 1). -/
def Obligations.ResetMeetsMemoryForm : Prop := Memory.wf State.reset.mem = true

/-- Every step keeps the canonical form of memory, so that equal memories are equal data, whatever the module does in it. -/
def Obligations.StepKeepsMemoryForm : Prop :=
  ∀ s t : State, Memory.wf s.mem = true → step s = .next t → Memory.wf t.mem = true

/-! ### The S slot: SLM, the global port, transfers -/

/-- LDS and STS (R111, R112): an aligned access inside SLM, of a context that runs no prediction. LDS gives the bytes at XA + sext(IMM),
lowest first, extended as SX says; STS, outside the launch record and with no closed segment, writes the low bytes of XS there and nothing
else. -/
def Obligations.LocalMemoryResults : Prop :=
  ∀ (s : State) (sz : MSize) (sx : Bool) (xd xs xa : Reg) (imm : BitVec 32),
    let a := (s.x xa + imm.signExtend 64).toNat
    let n := sz.bytes
    a % n = 0 → a + n ≤ s.slmSize → s.cx.spec = none →
    (∃ v : W64, exec (.lds sz sx xd xa imm) s = .next (s.setX xd v) ∧
      (∀ k, k < n → v.extractLsb' (8 * k) 8 = s.cx.slmByte (a + k)) ∧
      ∀ i, 8 * n ≤ i → i < 64 → v.getLsbD i = (sx && v.getLsbD (8 * n - 1))) ∧
    (64 ≤ a → s.cx.seg.closing = none →
      Goes (exec (.sts sz xs xa imm) s) fun t => OnlyCtx s t ∧ t.cx = { s.cx with slm := t.cx.slm } ∧
        (∀ k, k < n → t.cx.slmByte (a + k) = (s.x xs).extractLsb' (8 * k) 8) ∧
        ∀ b, (b < a ∨ a + n ≤ b) → t.cx.slmByte b = s.cx.slmByte b)

/-- The SLM causes, in the order of R29: SLM_ALIGN for an unaligned access, then SLM_RANGE past the top, then SLM_RO for a store to the
launch record (R11). The causes of a global access and of a signal operation, in the order of R29: GLOBAL_RANGE for an address of 2^56 or
more, GLOBAL_ALIGN for an unaligned one, GLOBAL_FAULT with the walk code for one that does not translate; the record's data address is the
address (R113, R330, R331). Where a transfer traps: MISALIGNED_PC for a register target off a 64-byte boundary (R17, R118); LOOP_MARK where
LOOP's OFF is below 1 or its E lies before its S, and LOOP_DEPTH where four loops are active (R23, R79, R119). -/
def Obligations.SequencerTraps : Prop :=
   (∀ (s : State) (sz : MSize) (sx : Bool) (xd xs xa : Reg) (imm : BitVec 32),
      let a := (s.x xa + imm.signExtend 64).toNat
      let n := sz.bytes
      let both (c : BitVec 16) : Prop := exec (.lds sz sx xd xa imm) s = .next (s.takeTrap { cause := c }) ∧
        exec (.sts sz xs xa imm) s = .next (s.takeTrap { cause := c })
      (a % n ≠ 0 → both 0x0005) ∧ (a % n = 0 → s.slmSize < a + n → both 0x0006) ∧
        (a % n = 0 → a + n ≤ s.slmSize → a < 64 → exec (.sts sz xs xa imm) s = .next (s.takeTrap { cause := 0x0007 }))) ∧
   (∀ (s : State) (sz : MSize) (sx dev four : Bool) (op : AOp) (k : PCond) (sc : Scope) (xd xs xa xb xc : Reg) (imm : BitVec 32),
      let traps (i : Instr) (k : AccK) (bell : Bool) (a : W64) (n : Nat) : Prop :=
        let d := a.setWidth 56
        (2 ^ 56 ≤ a.toNat → exec i s = .next (s.takeTrap { cause := 0x0008, data := d })) ∧
          (a.toNat < 2 ^ 56 → a.toNat % n ≠ 0 → exec i s = .next (s.takeTrap { cause := 0x0009, data := d })) ∧
          ∀ w, a.toNat < 2 ^ 56 → a.toNat % n = 0 → s.translate s.cx.tlb (s.ctxXlat s.cur.ctx) k bell a.toNat = .error w →
            exec i s = .next (s.takeTrap { cause := 0x000A, detail := w, data := d })
      let ea := s.x xa + imm.signExtend 64
      traps (.ldg sz sx dev xd xa imm) .load false ea sz.bytes ∧ traps (.stg sz dev xs xa imm) .store false ea sz.bytes ∧
        traps (.amog op four xd xa xb xc) .atomic true (s.x xa) (if four then 4 else 8) ∧
        (s.cur.side = .seq → traps (.sigadd sc xd xa xb) .atomic true (s.x xa) 8 ∧ traps (.sigst sc xa xb) .store true (s.x xa) 8 ∧
          traps (.sigwait k sc xd xa xb) .load true (s.x xa) 8)) ∧
   (∀ (s : State) (xd xa : Reg) (off : BitVec 30),
      let rel : VA := s.cx.pc + off.signExtend 56 * 64
      ((s.x xa).toNat % 64 ≠ 0 → ∀ i ∈ [Instr.callR xd xa, .jmpR xa, .ret xa], exec i s = .next (s.takeTrap { cause := 0x0004 })) ∧
        (off.toInt < 1 ∨ rel.toNat < (s.cx.pc + 64).toNat → exec (.loop xa off) s = .next (s.takeTrap { cause := 0x0003 })) ∧
        (1 ≤ off.toInt → (s.cx.pc + 64).toNat ≤ rel.toNat → 4 ≤ s.cx.loops.length →
          exec (.loop xa off) s = .next (s.takeTrap { cause := 0x0011 })))

/-- LDG, STG and AMOG issue (R111, R113 to R115): of a context that runs no prediction, at an aligned address below 2^56 that translates,
with a place free in the port (and no closed segment, for STG and AMOG), the access enters the port with its address, the destination waits
for its result unless it is x0, and nothing else of the context changes but the translation cache and the mark that the segment cannot be
repeated (R385), which STG and AMOG set. -/
def Obligations.GlobalAccessIssue : Prop :=
  ∀ (s : State) (xd xs xa xb xc : Reg) (imm : BitVec 32) (pa : Nat) (e : TlbE),
    let entered (i : Instr) (a n : Nat) (dev : Bool) (op : SOp) (xd : Reg) (outside : Bool) : Prop :=
      Goes (exec i s) fun t => OnlyCtx s t ∧
        t.cx = { s.cx with tlb := t.cx.tlb, port := t.cx.port, pendX := t.cx.pendX, seg := t.cx.seg } ∧
        t.cx.port = s.cx.port ++ [{ bsn := s.cx.bsn, va := a, pa := pa, size := n, dev := dev, op := op }] ∧
        t.cx.pendX = pendAlso xd s.cx.bsn s.cx.pendX ∧
        t.cx.seg = (if outside then { s.cx.seg with unrep := true } else s.cx.seg)
    let translates (k : AccK) (bell : Bool) (a n : Nat) : Prop :=
      a < 2 ^ 56 ∧ a % n = 0 ∧ s.translate s.cx.tlb (s.ctxXlat s.cur.ctx) k bell a = .ok (pa, e)
    let room (store : Bool) (m : Nat) : Prop := (s.cx.port.filter fun a => a.op.isStore == store).length < m
    let ea := (s.x xa + imm.signExtend 64).toNat
    s.cx.spec = none →
    (∀ sz sx dev, translates .load false ea sz.bytes → room false 16 →
      entered (.ldg sz sx dev xd xa imm) ea sz.bytes dev (.load sx xd) xd false) ∧
    (∀ sz dev, translates .store false ea sz.bytes → room true 32 → s.cx.seg.closing = none →
      entered (.stg sz dev xs xa imm) ea sz.bytes dev (.store (s.x xs)) 0 true) ∧
    ∀ op four, translates .atomic true (s.x xa).toNat (if four then 4 else 8) → room false 16 → s.cx.seg.closing = none →
      entered (.amog op four xd xa xb xc) (s.x xa).toNat (if four then 4 else 8) true (.amo op xd (s.x xb) (s.x xc)) xd true

/-- An access of a context's port is performed (R111, R114, R115): one that no earlier access or signal operation of its context shares a
byte with, in plain memory that holds no poison, of a context that runs no prediction. A load and an atomic write their register with the
bytes read, unless a later bundle has written it; a store and an atomic write the bytes at their address and no other. The access leaves the
port; of the context nothing else changes but the marks of an error in that register and what takes the result too: the checkpoints and the
record of a trapped bundle. The atomic operations at 8
bytes (R114): the new value, wrapping modulo 2^64, compared as signed numbers in MIN and MAX and as unsigned ones in MINN and MAXN; CAS
stores B where the old value equals C. -/
def Obligations.GlobalAccessPerformed : Prop :=
   (∀ (s : State) (c idx : Nat) (a : SAcc), (s.ctx c).port[idx]? = some a → portFree (s.ctx c).port idx = true →
      (s.ctx c).sigFree a = true → Plain s a.pa a.size → s.poisonIn a.pa a.size = false → (s.ctx c).spec = none →
      let old := loaded s a.pa a.size
      let gone (t : State) : Prop := t = { s with ctxs := t.ctxs, mem := t.mem } ∧ (∀ d, d ≠ c → t.ctx d = s.ctx d) ∧
        t.ctx c = { s.ctx c with port := (s.ctx c).port.eraseIdx idx, sc := (t.ctx c).sc, pendX := (t.ctx c).pendX,
                                 bad := (t.ctx c).bad, fcr := (t.ctx c).fcr,
                                 seg := { (s.ctx c).seg with ckpt := (t.ctx c).seg.ckpt, next := (t.ctx c).seg.next } }
      let got (t : State) (xd : Reg) (v : W64) : Prop := Delivered s t c xd a.bsn v
      (∀ sx xd, a.op = .load sx xd → Goes (exec (.globalLoadReturn c idx) s) fun t => gone t ∧ t.mem = s.mem ∧
        got t xd (if sx ∧ 2 ^ (8 * a.size - 1) ≤ old then BitVec.ofInt 64 ((old : Int) - 2 ^ (8 * a.size)) else BitVec.ofNat 64 old)) ∧
      (∀ op xd b k, 0 < a.size → a.op = .amo op xd b k → Goes (exec (.globalLoadReturn c idx) s) fun t => gone t ∧
        got t xd (BitVec.ofNat 64 old) ∧ Stored s t a.pa a.size (amoNew op a.size old b.toNat k.toNat)) ∧
      ∀ v, a.op = .store v → Goes (exec (.storePerformed (.seq c) idx) s) fun t => gone t ∧ (t.ctx c).sc = (s.ctx c).sc ∧
        (t.ctx c).pendX = (s.ctx c).pendX ∧ (t.ctx c).fcr = (s.ctx c).fcr ∧ Stored s t a.pa a.size v.toNat) ∧
   (∀ (o b c : W64),
      let new (op : AOp) : W64 := BitVec.ofNat 64 (amoNew op 8 o.toNat b.toNat c.toNat)
      new .swap = b ∧ new .add = o + b ∧ new .and = o &&& b ∧ new .or = o ||| b ∧ new .xor = o ^^^ b ∧
        new .min = (if b.toInt < o.toInt then b else o) ∧ new .max = (if o.toInt < b.toInt then b else o) ∧
        new .minn = (if b.toNat < o.toNat then b else o) ∧ new .maxn = (if o.toNat < b.toNat then b else o) ∧
        new .cas = (if o = c then b else o))

/-- Transfers (R17, R23, R26, R117 to R120): where they go, the register that CALL writes, the loops that a taken BR, BRQ, JMP or RET leaves
(those from the innermost on whose range excludes the target; where ranges are not nested, that the first one that includes it ends this is
the model's choice, log 21), the push or the skip of LOOP, and the end of issue by EXIT. A register target is aligned to a bundle. -/
def Obligations.TransferResults : Prop :=
  ∀ (s : State) (c : Cond) (xd xa xb : Reg) (q : QIdx) (neg : Bool) (off : BitVec 30) (code : BitVec 16),
    let rel : VA := s.cx.pc + off.signExtend 56 * 64
    let reg : VA := (s.x xa).setWidth 56
    let link : W64 := (s.cx.pc + 64).setWidth 64
    let n : BitVec 32 := (s.x xa).setWidth 32
    let inside (t : VA) (e : LoopE) : Bool := decide (e.s.toNat ≤ t.toNat) && decide (t.toNat ≤ e.e.toNat)
    let lands (i : Instr) (tgt : VA) (x : Ctx) : Prop :=
      Goes (exec i s) fun t => t = { s with ctxs := t.ctxs, cur := { s.cur with npc := tgt, taken := true } } ∧
        (∀ d, d ≠ s.cur.ctx → t.ctx d = s.ctx d) ∧ t.cx = x
    let left (tgt : VA) : Ctx := { s.cx with loops := s.cx.loops.dropWhile fun e => !inside tgt e }
    let linked : Ctx := { s.cx with sc := s.cx.sc.setX xd link }
    (Cond.holds c (s.x xa) (s.x xb) = true → lands (.br c xa xb off) rel (left rel)) ∧
    (Cond.holds c (s.x xa) (s.x xb) = false → exec (.br c xa xb off) s = .next s) ∧
    (s.q q ≠ neg → lands (.brq q neg off) rel (left rel)) ∧ (s.q q = neg → exec (.brq q neg off) s = .next s) ∧
    lands (.call xd off) rel linked ∧ lands (.jmp off) rel (left rel) ∧
    (reg.toNat % 64 = 0 → lands (.callR xd xa) reg linked ∧ lands (.jmpR xa) reg (left reg) ∧ lands (.ret xa) reg (left reg)) ∧
    (1 ≤ off.toInt → s.cx.pc.toNat + 64 ≤ rel.toNat → s.cx.loops.length < 4 →
      (n = 0 → lands (.loop xa off) (rel + 64) s.cx) ∧
      (n ≠ 0 → lands (.loop xa off) (s.cx.pc + 64) { s.cx with loops := ⟨n, s.cx.pc + 64, rel, 0⟩ :: s.cx.loops })) ∧
    Goes (exec (.exit code) s) fun t => OnlyCtx s t ∧ t.cx = { s.cx with lst := .exited, loops := [], ucode := code }

/-- Taking a sequencer-detected cause (R28, R351, R356 to R358), of a context that runs no prediction: it freezes at the bundle, whose BSN
is both f and g; the record takes the bundle's address, the cause, the detail, the user code, the data address, the slot and its field; the
trap message is posted, and on the purser pair SP64 halts (R389). What the model keeps for a resume is that the record names no die fault
(R355) and the tokens of the bundle's slots (R338). PC, BSN, every register, the loop stack, SLM, memory and every other context stay. -/
def Obligations.TrapEntry : Prop :=
  ∀ (s : State) (u : Trap), s.cx.spec = none →
    let t := s.takeTrap u
    let f := t.cx.fcr
    t.cx = { s.cx with frozen := true, trappend := t.cx.trappend, fcr := f, recFault := none,
                       trapToks := (s.cur.pkt.map fun p => p.slots.filterMap fun e => toutOf e.2).getD [] } ∧
      t.cx.trappend = decide (s.cur.ctx ≠ purser) ∧
      (∀ c, c ≠ s.cur.ctx → t.ctx c = s.ctx c) ∧
      t = { s with ctxs := t.ctxs, cur := { s.cur with trap := some { u with slot := s.cur.slot } },
                   phalt := s.phalt || decide (s.cur.ctx = purser) } ∧
      f.cause = u.cause ∧ f.detail = u.detail ∧ f.ucode = u.ucode ∧ f.data = u.data ∧ f.slot = s.cur.slot ∧ f.dief = false ∧ f.field = s.curField ∧
      f.f = s.cx.bsn ∧ f.g = s.cx.bsn ∧ f.addrF = s.cx.pc

/-- A bundle without slots (R16, R18, R24): BSN rises by one; PC goes on to the next bundle, or to S of the innermost loop at its E while
its count is above one, which falls by one and asks the dies for a rotation step; a loop whose count is one is popped there. -/
def Obligations.NoOperationResult : Prop :=
  ∀ (s : State), Goes (exec .noOperation s) fun t =>
    let x := s.cx
    let next := x.pc + 64
    t = { s with ctxs := t.ctxs, parts := t.parts } ∧ (∀ d, d ≠ s.cur.ctx → t.ctx d = s.ctx d) ∧
      t.cx = { x with pc := t.cx.pc, bsn := x.bsn + 1, loops := t.cx.loops, rotn := t.cx.rotn } ∧
      match x.loops with
      | [] => t.cx.pc = next ∧ t.cx.loops = [] ∧ t.cx.rotn = x.rotn
      | e :: r =>
        (e.e ≠ x.pc → t.cx.pc = next ∧ t.cx.loops = e :: r ∧ t.cx.rotn = x.rotn) ∧
          (e.e = x.pc → e.count = 1 → t.cx.pc = next ∧ t.cx.loops = r ∧ t.cx.rotn = x.rotn) ∧
          (e.e = x.pc → e.count ≠ 1 → t.cx.pc = e.s ∧ t.cx.rotn = x.rotn + 1 ∧
            t.cx.loops = { e with count := e.count - 1, edges := e.edges + 1 } :: r)

/-! ### Steps -/

/-- A step whose next act is an instruction of the table runs exec of it, without the act, and ends: it is counted, a change of MSTATUS is
noted, and a message wakes the purser pair. A step whose next act is a context's next bundle runs the bundle that the bytes at its PC decode
to. The context may issue and has no error pending; its instruction cache holds no line for the PC, the PC translates, and the 64 bytes there
hold no poison. If they decode to a bundle of an S-slot instruction alone, no loop or rewind is in progress, no register that it reads waits
for a result, BSN is not exhausted, and the instruction, run over the registers before the bundle, completes without a trap or a wait, then
the step is that exec, with the register it writes no longer waiting for an earlier result, followed by the end of the bundle (R15 to R19).
That a step takes the acts one by one, in the order of the agenda, is the model's choice (log 2). -/
def Obligations.StepRunsTheDecoded : Prop :=
   (∀ (s t : State) (i : Instr) (r : List Act), s.agenda = .ev i :: r → exec i { s with agenda := r } = .next t →
      step s = .next (s.endStep t)) ∧
   (∀ (s : State) (c pa : Nat) (e : TlbE) (b : Bundle) (i : Instr) (t0 t : State) (r : List Act),
      s.agenda = .run c :: r →
      let s0 : State := { s with agenda := r, cur := { Cur.reset with ctx := c } }
      let w := s0.bundleAt pa
      let s1 := (s0.updCtx c Ctx.running).keepLine c w
      let p := s1.packetFor b
      let s2 := s1.updCtx c fun x => { x with pendX := x.pendX.filter fun e => !(sDest i).toList.contains e.1 }
      s.mayIssue c = true → (s.ctx c).mismatch = false → (s.ctx c).bad = [] → (s.ctx c).cachedLine (s.ctx c).pc.toNat (s.ctxXlat c).job = none →
      s.translate (s.ctx c).tlb (s.ctxXlat c) .fetch true (s.ctx c).pc.toNat = .ok (pa, e) → s.poisonIn pa 64 = false →
      decodeBundle w = .ok b → b.slots = [(0, i)] → b.rv = false → (s.ctx c).loops = [] → (s.ctx c).seg.rewind = none →
      (∀ w ∈ (s.ctx c).pendX, w.1 ∉ sReads i) → (s.ctx c).bsn ≠ BitVec.allOnes 48 → 0 ∈ slotsOf i →
      exec i (s1.enterSeq s1 c 0 p) = .next t0 → t0.cur.trap = none → t0.cur.stalled = false → exec i (s2.enterSeq s1 c 0 p) = .next t →
      step s = .next (s.endStep { (t.closeBundle c t.cur.taken t.cur.npc).updCtx c fun y =>
        y.rewritten (sDest i).toList (qDests i) ((s1.ctx c).stsUnit b) p.bsn with cur := Cur.reset }))

/-- Module reset, as R7, R8, R31, R124, R174 and R441 give it: every context idle with x0 to x63 zero, q0 true and q1 to q7 false, PC, BSN
and SLM zero, no loop and no global access outstanding; in every die slices zero, p0 true and the other predicates false, PRB, views, dc
registers, the constant table and both masks zero; the boot state RESET; protected mode. Where the spec gives no reset value, the value is
of the model (logs 8, 12 and 13). -/
def Obligations.ResetState : Prop :=
  (∀ c, let x := State.reset.ctx c
    x.lst = .idle ∧ x.frozen = false ∧ (∀ n, x.sc.getX n = 0) ∧ (∀ q, x.sc.getQ q = (q == 0)) ∧ x.pc = 0 ∧ x.bsn = 0 ∧ x.loops = [] ∧
      (∀ a, x.slmByte a = 0) ∧ x.port = []) ∧
  (∀ d, let y := State.reset.die d
    (∀ l ∈ y.regs.lanes, (∀ n, l.slice n = 0) ∧ ∀ p, p < 16 → l.pred p = (p == 0)) ∧ y.regs.prb = 0 ∧
      y.regs.views = List.replicate 8 0 ∧ y.regs.dcs = List.replicate 4 0 ∧ y.consts = List.replicate 64 0 ∧ y.regs.dmask = 0 ∧
      y.regs.qmask = 0 ∧ y.queue = [] ∧ y.flights = []) ∧
  State.reset.boot = .reset ∧ State.reset.unprot = false ∧ State.reset.phalt = false ∧ ∀ b, (State.reset.bank b).valid = false

/-! ### Packets on the tree, and the issue of a die -/

/-- Tree traffic (R77, R139): the oldest packet in flight to a die enters its decode queue; a credit on its way back is counted free. A die
issues the bundle at the head of its queue (R139, R140, R352): where nothing holds the die and it is enabled, the bundle is no part of a
replay, lies beyond the frontier and holds no PERM, nothing that it reads has an error and no interlock holds it, the slots run in slot order,
and if none waits or faults, the bundle has issued whole: its writes are resolved, the replay queue takes it, of two slots that name one
token the higher one's completion writes it, and the frontier moves. A bundle without slots leaves the queue, its credit goes back, its
rotation steps take effect and the frontier is its BSN. -/
def Obligations.TreeTrafficAndDieIssue : Prop :=
   ((∀ (s : State) (c d : Nat) (p : Packet) (pre post : List (Nat × Packet)), (s.ctx c).wire = pre ++ (d, p) :: post →
      (∀ e ∈ pre, e.1 ≠ d) → Goes (exec (.treePacketArrival c d) s) fun t =>
        t = { s with ctxs := t.ctxs, dies := t.dies } ∧ (∀ k, k ≠ c → t.ctx k = s.ctx k) ∧ (∀ k, k ≠ d → t.die k = s.die k) ∧
        t.ctx c = { s.ctx c with wire := pre ++ post } ∧ t.die d = { s.die d with queue := (s.die d).queue ++ [p] }) ∧
    ∀ (s : State) (c d : Nat), d ∈ (s.ctx c).credits → Goes (exec (.creditReturn c d) s) fun t =>
      t = { s with ctxs := t.ctxs } ∧ (∀ k, k ≠ c → t.ctx k = s.ctx k) ∧
        t.ctx c = { s.ctx c with credits := (s.ctx c).credits.erase d, used := (t.ctx c).used } ∧
        ∀ k, Tbl.get 0 (t.ctx c).used k = Tbl.get 0 (s.ctx c).used k - (if k = d then 1 else 0)) ∧
   (∀ (s : State) (d c : Nat) (p : Packet) (r : List Packet), s.driver d = some c → (s.die d).queue = p :: r →
      s.noIssue d = false → (s.die d).held = false → (s.die d).redo = none → p.replay = none → (s.die d).passed p = false →
      s.enabled d = true → (s.die d).parity = [] → (s.die d).bad = [] → p.isPerm = false →
      let src := (s.die d).turned p
      let h := s.takeHead d p
      let u := (h.enterDie d p src none).runSlots p.slots
      ((h.die d).interlocked src p p.slots = false → u.cur.stalled = false → u.cur.failed = [] →
        Goes (exec (.dieBundleIssue d) s) fun t =>
          t = { (u.updDie d fun y => (((y.resolve p.bsn u.cur.claimed).pushReplay p src).mute p.bsn (p.muted [])).issued p) with cur := Cur.reset }) ∧
      (p.slots = [] →
        Goes (exec (.dieBundleIssue d) s) fun t => (t.die d).queue = r ∧ (t.ctx c).credits = (s.ctx c).credits ++ [d] ∧
          (t.die d).regs = (s.die d).regs.rotate p.rotn.toNat ∧ (t.die d).frontier = some p.bsn ∧
          (t.die d).commitWait = ((s.die d).commitWait || p.rv)))

/-! ### Operands and lanes of a die -/

/-- Source operands (R73, R75): slices by name, the first lowest; a scalar register as the packet carries it; the lane index of the
quadrant, its row and its column; the quadrant; the die's place in the gang; a constant-table entry. Renaming (R133 to R135): the
lowest-numbered ROT view that covers a name turns it within the view's range by RRB; a name that no ROT view covers names itself; a rotation
step (R134, R449) lowers the RRB of every ROT view by P2 modulo P1 and raises PRB by one, and k steps are k times one; p0 to p7 are not renamed, and p8 to p15 turn with PRB. A write to a lane (R73, R129):
the slices that it names take the value, the first its lowest four bits, and no other slice and no predicate changes; a predicate write
changes that predicate alone, and p0 reads as true whatever is written (R124). -/
def Obligations.LaneRegisters : Prop :=
   (∀ (s : State) (pos : Nat) (l : Lane) (d : Dst) (r : Reg) (n : BitVec 6),
      (∀ k, k < d.w.slices →
        s.raw (.sl d) pos l / 16 ^ k % 16 = l.slice (renSl s.dsrc.views (d.start.toNat + k))) ∧
        s.raw (.sl d) pos l < 16 ^ d.w.slices ∧
        (∀ p, s.cur.pkt = some p → s.raw (.x r) pos l = (p.getX r).toNat) ∧
        s.raw .lane pos l = pos % 1024 ∧ s.raw .row pos l = pos % 1024 / 64 ∧ s.raw .col pos l = pos % 64 ∧ s.raw .quad pos l = pos / 1024 ∧
        (∀ c, s.driver s.cur.die = some c → s.raw .die pos l = ((s.gangDies c).filter fun e => decide (e < s.cur.die)).length) ∧
        s.raw (.c n) pos l = (s.dx.consts.getD n.toNat 0).toNat) ∧
   ((∀ (views : List W64) (n : Nat),
      let covers (v : W64) : Prop := vwKind v = 3 ∧ vwBase v ≤ n ∧ n < vwBase v + vwP1 v
      ((∀ v ∈ views, ¬covers v) → renSl views n = n) ∧
      ∀ (v : W64) (pre post : List W64), views = pre ++ v :: post → (∀ u ∈ pre, ¬covers u) → covers v →
        vwBase v ≤ renSl views n ∧ renSl views n < vwBase v + vwP1 v ∧ (renSl views n - vwBase v) % vwP1 v = (n - vwBase v + vwRrb v) % vwP1 v) ∧
    (∀ (v : W64), vwOk v = true → vwKind v = 3 →
      let u := rotView 1 v
      vwKind u = 3 ∧ vwBase u = vwBase v ∧ vwP1 u = vwP1 v ∧ vwP2 u = vwP2 v ∧ (vwRrb u + vwP2 v) % vwP1 v = vwRrb v % vwP1 v ∧ vwRrb u < vwP1 v) ∧
    (∀ (r : DieRegs) (k : Nat), r.rotate 1 = { r with prb := r.prb + 1, views := r.views.map (rotView 1) } ∧
      ((∀ v ∈ r.views, vwOk v = true) → r.rotate (k + 1) = (r.rotate k).rotate 1)) ∧
    ∀ (prb : BitVec 3) (i : PIdx), (i.toNat < 8 → renP prb i = i.toNat) ∧ (8 ≤ i.toNat → renP prb i = 8 + (i.toNat + 8 - prb.toNat) % 8)) ∧
   (∀ (l : Lane) (ps : List Nat) (v p q : Nat) (b : Bool), ps.Nodup → (∀ k ∈ ps, k < 512) → p < 16 →
      (l.apply (putSlices ps v)).rd ps = v % 16 ^ ps.length ∧
        (∀ k, k < 512 → k ∉ ps → (l.apply (putSlices ps v)).slice k = l.slice k) ∧ (l.apply (putSlices ps v)).pr = l.pr ∧
        (l.apply (putPred p b)).pred q = (if q = 0 then true else if q = p then b else l.pred q) ∧ (l.apply (putPred p b)).sl = l.sl)

/-! ### V0 and V1 -/

/-- Lane arithmetic at integer types (R34, R35, R154 to R156): wrapping sums, differences, products and fused forms; the high half of a
product; truncating quotients, all ones in VD's width for a zero divisor with DIVZERO; the smaller and the larger; saturating sums and differences with
OVERFLOW; magnitude and negation, which leave the most negative value as it is. That the width of the all-ones quotient is VD's is a reading
(log 15). -/
def Obligations.VectorIntegerResults : Prop :=
  ∀ (s : State) (a : V2) (b : V1) (c : V3),
    let val2 (g : Int → Int → Int) (pos : Nat) (l : Lane) : Nat :=
      narrow a.ty a.vd.w (g (elem s a.ty a.va pos l) (elem s a.ty a.vb pos l))
    let two (i : Instr) (g : Int → Int → Int) : Prop := a.ty.isF = false → SendsQuiet i s a.pg (s.dsrc.physD a.vd) (val2 g)
    let three (i : Instr) (g : Int → Int → Int → Int) : Prop := c.ty.isF = false → SendsQuiet i s c.pg (s.dsrc.physD c.vd) fun pos l =>
      narrow c.ty c.vd.w (g (elem s c.ty c.va pos l) (elem s c.ty c.vb pos l) (elem s c.ty c.vc pos l))
    let one (i : Instr) (g : Int → Int) : Prop := b.ty.isF = false → SendsQuiet i s b.pg (s.dsrc.physD b.vd) fun pos l =>
      narrow b.ty b.vd.w (g (elem s b.ty b.va pos l))
    let w := min a.ty.bits a.vd.w.bits
    let lo : Int := if a.ty.isS then -(2 ^ (w - 1) : Nat) else 0
    let hi : Int := if a.ty.isS then (2 ^ (w - 1) : Nat) - 1 else (2 ^ w : Nat) - 1
    let sat (i : Instr) (g : Int → Int → Int) : Prop := a.ty.isF = false → Sends i s a.pg (s.dsrc.physD a.vd)
      (val2 fun x y => max lo (min hi (g x y)))
      fun pos l =>
        let v := g (elem s a.ty a.va pos l) (elem s a.ty a.vb pos l)
        { ovf := decide (v < lo ∨ hi < v) }
    two (.vadd a) (· + ·) ∧ two (.vsub a) (· - ·) ∧ two (.vmul a) (· * ·) ∧
      two (.vmulh a) (fun x y => x * y / (2 ^ a.ty.bits : Nat)) ∧
      (a.ty.isF = false → Sends (.vdiv a) s a.pg (s.dsrc.physD a.vd)
        (fun pos l => if elem s a.ty a.vb pos l = 0 then 2 ^ a.vd.w.bits - 1 else val2 Int.tdiv pos l)
        fun pos l => { dz := decide (elem s a.ty a.vb pos l = 0) }) ∧
      two (.vmin a) min ∧ two (.vmax a) max ∧ three (.vfma c) (fun x y z => x * y + z) ∧ three (.vfms c) (fun x y z => x * y - z) ∧
      three (.vfnma c) (fun x y z => -(x * y) + z) ∧ sat (.vadds a) (· + ·) ∧ sat (.vsubs a) (· - ·) ∧
      one (.vabs b) (fun x => x.natAbs) ∧ one (.vneg b) (fun x => -x)

/-- Lane arithmetic at floating-point types (R46 to R50, R53, R157, R160): each operation rounds once in the mode of the bundle's sideband,
and its events go with the result; VMIN, VMAX, VABS and VNEG are exact and log nothing; a conversion rounds in the mode of its field.
Special functions: log 6. -/
def Obligations.VectorFloatResults : Prop :=
  ∀ (s : State) (a : V2) (b : V1) (c : V3) (d : VCvtA),
    let m := s.smode
    let fa := fmtOf a.ty
    let fb := fmtOf b.ty
    let fc := fmtOf c.ty
    let two (i : Instr) (g : Nat → Nat → Nat × Ev) : Prop := a.ty.isF = true → Sends i s a.pg (s.dsrc.physD a.vd)
      (fun pos l => widen a.ty a.vd.w (g (s.val a.ty a.va pos l) (s.val a.ty a.vb pos l)).1)
      fun pos l => (g (s.val a.ty a.va pos l) (s.val a.ty a.vb pos l)).2
    let twoQuiet (i : Instr) (g : Nat → Nat → Nat) : Prop := a.ty.isF = true → SendsQuiet i s a.pg (s.dsrc.physD a.vd)
      fun pos l => widen a.ty a.vd.w (g (s.val a.ty a.va pos l) (s.val a.ty a.vb pos l))
    let three (i : Instr) (np nc : Bool) : Prop :=
      let g (pos : Nat) (l : Lane) := fFma fc m np nc (s.val c.ty c.va pos l) (s.val c.ty c.vb pos l) (s.val c.ty c.vc pos l)
      c.ty.isF = true → Sends i s c.pg (s.dsrc.physD c.vd) (fun pos l => widen c.ty c.vd.w (g pos l).1) fun pos l => (g pos l).2
    let one (i : Instr) (g : Nat → Nat × Ev) : Prop := b.ty.isF = true → Sends i s b.pg (s.dsrc.physD b.vd)
      (fun pos l => widen b.ty b.vd.w (g (s.val b.ty b.va pos l)).1) fun pos l => (g (s.val b.ty b.va pos l)).2
    let signed (i : Instr) (g : Nat → Nat) : Prop := b.ty.isF = true → SendsQuiet i s b.pg (s.dsrc.physD b.vd) fun pos l =>
      let x := s.val b.ty b.va pos l
      widen b.ty b.vd.w (if (FV.dec fb x).isNan then g (fb.nanBits) else g x)
    let sgn := 2 ^ (b.ty.bits - 1)
    two (.vadd a) (fAdd fa m) ∧ two (.vsub a) (fSub fa m) ∧ two (.vmul a) (fMul fa m) ∧ two (.vdiv a) (fDiv fa m) ∧
      twoQuiet (.vmin a) (fMin fa) ∧ twoQuiet (.vmax a) (fMax fa) ∧
      three (.vfma c) false false ∧ three (.vfms c) false true ∧ three (.vfnma c) true false ∧
      signed (.vabs b) (fun x => if x < sgn then x else x - sgn) ∧
      (b.ty.isF = true → SendsQuiet (.vneg b) s b.pg (s.dsrc.physD b.vd) fun pos l =>
        let x := s.val b.ty b.va pos l
        widen b.ty b.vd.w (if (FV.dec fb x).isNan then fb.nanBits else if x < sgn then x + sgn else x - sgn)) ∧
      one (.vrcp b) (fSpecial .rcp fb m) ∧ one (.vsqrt b) (fSpecial .sqrt fb m) ∧ one (.vrsq b) (fSpecial .rsq fb m) ∧
      one (.vexp2 b) (fSpecial .exp2 fb m) ∧ one (.vlog2 b) (fSpecial .log2 fb m) ∧ one (.vtanh b) (fSpecial .tanh fb m) ∧
      Sends (.vcvt d) s d.pg (s.dsrc.physD d.vd)
        (fun pos l => widen d.td d.vd.w (convert d.ts d.td (Rnd.mode d.rnd m) d.sat (s.val d.ts d.va pos l)).1)
        fun pos l => (convert d.ts d.td (Rnd.mode d.rnd m) d.sat (s.val d.ts d.va pos l)).2

/-- Moves, bitwise operations, shifts, counts, selections, compares and predicate logic (R36, R153 to R156, R158, R159, R166, R167), which
log nothing: bitwise operations act bit by bit on the encodings; a shift count at or above the width gives zero, or copies of the sign bit
in an arithmetic shift; a count of leading zeros is the number of zero bits above the highest one. -/
def Obligations.VectorLogicResults : Prop :=
  ∀ (s : State) (a : V2) (b : V1) (c : VCmpA) (e : VSelA) (x : VIdxA) (p : P2) (n : P1),
    let w := a.ty.bits
    let bits (i : Instr) (g : Bool → Bool → Bool) : Prop := ∃ r : Nat → Lane → Nat,
      SendsQuiet i s a.pg (s.dsrc.physD a.vd) (fun pos l => widen a.ty a.vd.w (r pos l)) ∧
        ∀ pos l, r pos l < 2 ^ w ∧ ∀ k, k < w → (r pos l).testBit k = g ((s.val a.ty a.va pos l).testBit k) ((s.val a.ty a.vb pos l).testBit k)
    let pr (i : PIdx) (l : Lane) : Bool := s.dsrc.predAt i l
    SendsQuiet (.vmov b) s b.pg (s.dsrc.physD b.vd) (fun pos l => widen b.ty b.vd.w (s.val b.ty b.va pos l)) ∧
      bits (.vand a) (· && ·) ∧ bits (.vor a) (· || ·) ∧ bits (.vxor a) xor ∧ bits (.vandn a) (fun u v => u && !v) ∧
      SendsQuiet (.vshl a) s a.pg (s.dsrc.physD a.vd) (fun pos l =>
        let k := s.val a.ty a.vb pos l
        widen a.ty a.vd.w (if w ≤ k then 0 else s.val a.ty a.va pos l * 2 ^ k % 2 ^ w)) ∧
      SendsQuiet (.vshr a) s a.pg (s.dsrc.physD a.vd) (fun pos l =>
        let k := s.val a.ty a.vb pos l
        let v := elem s a.ty a.va pos l
        narrow a.ty a.vd.w (if w ≤ k then (if v < 0 then -1 else 0) else v / (2 ^ k : Nat))) ∧
      (∃ r : Nat → Lane → Nat, SendsQuiet (.vclz b) s b.pg (s.dsrc.physD b.vd) (fun pos l => widen b.ty b.vd.w (r pos l)) ∧
        ∀ pos l, let v := s.val b.ty b.va pos l
          r pos l ≤ b.ty.bits ∧ v < 2 ^ (b.ty.bits - r pos l) ∧ (r pos l < b.ty.bits → 2 ^ (b.ty.bits - r pos l - 1) ≤ v)) ∧
      SendsQuiet (.vpopc b) s b.pg (s.dsrc.physD b.vd) (fun pos l =>
        widen b.ty b.vd.w ((List.range b.ty.bits).filter fun k => (s.val b.ty b.va pos l).testBit k).length) ∧
      SendsPred (.vcmp c) s c.pg c.pd (fun pos l =>
        let u := s.val c.ty c.va pos l
        let v := s.val c.ty c.vb pos l
        if c.ty.isF then fRel (fmtOf c.ty) c.rel u v
        else match c.rel with
          | .eq => decide (tval c.ty u = tval c.ty v)
          | .ne => decide (tval c.ty u ≠ tval c.ty v)
          | .lt => decide (tval c.ty u < tval c.ty v)
          | .le => decide (tval c.ty u ≤ tval c.ty v)
          | .gt => decide (tval c.ty u > tval c.ty v)
          | .ge => decide (tval c.ty u ≥ tval c.ty v)
          | .un => false) ∧
      SendsQuiet (.vsel e) s e.pg (s.dsrc.physD e.vd) (fun pos l =>
        widen e.ty e.vd.w (if pr e.ps l then s.val e.ty e.va pos l else s.val e.ty e.vb pos l)) ∧
      SendsPred (.pand p) s p.pg p.pd (fun _ l => pr p.pa l && pr p.pb l) ∧
      SendsPred (.por p) s p.pg p.pd (fun _ l => pr p.pa l || pr p.pb l) ∧
      SendsPred (.pxor p) s p.pg p.pd (fun _ l => xor (pr p.pa l) (pr p.pb l)) ∧
      SendsPred (.pnot n) s n.pg n.pd (fun _ l => !pr n.pa l) ∧
      SendsQuiet (.vidx x) s x.pg (s.dsrc.physD x.vd) (fun pos _ =>
        let from' := if x.quad then pos - pos % 1024 else pos - pos % 64
        widen x.ty x.vd.w (((List.range pos).filter fun k => decide (from' ≤ k ∧ k < s.dsrc.lanes.length) && pr x.pa (s.laneAt k)).length
          % 2 ^ x.ty.bits))

/-- Moves across lanes and reductions (R143, R162 to R165): lane (r, c) of a quadrant takes the value of another lane of its own quadrant,
whatever the predicates of that lane; a reduction combines the values of a row or a column in the fixed pairwise order. -/
def Obligations.CrossLaneResults : Prop :=
  ∀ (s : State) (a : V2) (x : VAxA) (r : VRedA),
    let row (pos : Nat) : Nat := pos % 1024 / 64
    let col (pos : Nat) : Nat := pos % 64
    let at' (pos r c : Nat) : Nat := 1024 * (pos / 1024) + 64 * r + c
    let amt (n : Nat) : Nat := match x.amt with
      | .imm k => k.toNat % n
      | .x r => (s.px r).toNat % n
      | .c k => (s.dx.consts.getD k.toNat 0).toNat % n
    let moves (i : Instr) (g : Nat → Nat) : Prop := SendsQuiet i s x.pg (s.dsrc.physD x.vd) fun pos _ =>
      widen x.ty x.vd.w (s.val x.ty x.va (g pos) (s.laneAt (g pos)))
    let step (u v : Nat) : Nat :=
      if r.ty.isF then
        match r.op with
        | .add => (fAdd (fmtOf r.ty) s.smode u v).1
        | .min => fMin (fmtOf r.ty) u v
        | .max => fMax (fmtOf r.ty) u v
        | .and => u &&& v
        | .or => u ||| v
        | .xor => u ^^^ v
      else
        match r.op with
        | .add => (u + v) % 2 ^ r.ty.bits
        | .min => if tval r.ty u ≤ tval r.ty v then u else v
        | .max => if tval r.ty u ≤ tval r.ty v then v else u
        | .and => u &&& v
        | .or => u ||| v
        | .xor => u ^^^ v
    let reduces (i : Instr) (n : Nat) (lane : Nat → Nat → Nat) : Prop :=
      SendsValue i s r.pg (s.dsrc.physD r.vd)
        (fun pos _ => widen r.ty r.vd.w (pairwise step n fun j => s.val r.ty r.va (lane pos j) (s.laneAt (lane pos j)))) fun _ => True
    SendsQuiet (.vshuf a) s a.pg (s.dsrc.physD a.vd) (fun pos l =>
        let p := 1024 * (pos / 1024) + s.val .n16 a.vb pos l % 1024
        widen a.ty a.vd.w (s.val a.ty a.va p (s.laneAt p))) ∧
      moves (.vrotr x) (fun pos => at' pos (row pos) ((col pos + 64 - amt 64) % 64)) ∧
      moves (.vrotc x) (fun pos => at' pos ((row pos + 16 - amt 16) % 16) (col pos)) ∧
      moves (.vbcr x) (fun pos => at' pos (row pos) (amt 64)) ∧ moves (.vbcc x) (fun pos => at' pos (amt 16) (col pos)) ∧
      reduces (.vredr r) 6 (fun pos j => at' pos (row pos) j) ∧ reduces (.vredc r) 4 (fun pos j => at' pos j (col pos))

/-- Long accumulators, die conditions and views (R54 to R57, R168 to R172): VLCLR clears all 84 slices; VLADD adds exactly, an element or
another accumulator, and VLRND rounds once; VCOND writes a dc register from the lanes that take part, and a die whose QMASK is clear changes
nothing; VVIEW writes a view at a die, and at the sequencer a value against R131's rules traps with BAD_VIEW. The sum itself (R55): every
finite value is a multiple of 2^−149 below 2^128 and is added exactly, VAL wraps modulo 2^320, a signed carry out of the range sets OVF, ±∞ and
NaN set their bits and leave VAL, and the sum of two accumulators ORs their status. The rounding (R57), case by case. -/
def Obligations.AccumulatorAndViewResults : Prop :=
  (∀ (ty : ETy) (x : Nat) (neg : Bool) (m : Nat) (e : Int), ty.isF = true → FV.dec (fmtOf ty) x = .fin neg m e →
    -149 ≤ e ∧ m * 2 ^ (e + 149).toNat < 2 ^ 277) ∧
  (∀ (l k : Lacc),
    let sums (r : Lacc) (v : Int) (o : Bool) : Prop := r.val = l.val + BitVec.ofInt 320 v ∧
      r.ovf = (l.ovf || o || decide (l.val.toInt + v < -2 ^ 319 ∨ 2 ^ 319 ≤ l.val.toInt + v))
    (∀ (neg : Bool) (m : Nat) (e : Int), -160 ≤ e →
      let r := l.addF (.fin neg m e)
      sums r (if neg then -(m * 2 ^ (e + 160).toNat : Int) else m * 2 ^ (e + 160).toNat) false ∧ r.nan = l.nan ∧ r.ninf = l.ninf ∧ r.pinf = l.pinf) ∧
      l.addF (.inf false) = { l with pinf := true } ∧ l.addF (.inf true) = { l with ninf := true } ∧ l.addF .nan = { l with nan := true } ∧
      sums (l.addL k) k.val.toInt k.ovf ∧ (l.addL k).nan = (l.nan || k.nan) ∧ (l.addL k).ninf = (l.ninf || k.ninf) ∧
      (l.addL k).pinf = (l.pinf || k.pinf)) ∧
  (∀ (l : Lacc) (m : RM),
    let gives (v : Nat) (e : Ev) : Prop := l.round .fp32 m = (v, e)
    let num : Prop := l.nan = false ∧ (l.pinf && l.ninf) = false
    (l.nan = true → gives 0x7FC00000 {}) ∧ (l.nan = false → l.pinf = true → l.ninf = true → gives 0x7FC00000 { inv := true }) ∧
      (num → l.ovf = true → gives 0x7FC00000 { ovf := true }) ∧
      (num → l.ovf = false → (l.pinf = true → gives 0x7F800000 {}) ∧ (l.ninf = true → gives 0xFF800000 {}) ∧
        (l.pinf = false → l.ninf = false → (l.val = 0 → gives 0 {}) ∧
          (l.val ≠ 0 → l.round .fp32 m = roundFin .fp32 m false (decide (l.val.toInt < 0)) l.val.toInt.natAbs (-160))))) ∧
  ∀ (s : State) (a : VLaddA) (r : VLrndA) (pg : PIdx) (vd : BitVec 9) (c : VCondA) (vw : BitVec 3) (xa : Reg),
    let slices (n : BitVec 9) : List Nat := s.dsrc.phys n.toNat 84
    let acc (n : BitVec 9) (l : Lane) : Lacc := Lacc.ofBits (l.rd (slices n))
    let terms : List Nat := ((List.range s.dsrc.lanes.length).filter (Active s c.pg)).map fun pos => s.val c.ty c.va pos (s.laneAt pos)
    let set (v : Nat) : Bool := if c.ty.isF then !(FV.dec (fmtOf c.ty) v).isZero else v != 0
    let fp (v : Nat) : Nat := (convert c.ty .fp32 .rne false v).1
    SendsQuiet (.vlclr pg vd) s pg (slices vd) (fun _ _ => 0) ∧
      SendsQuiet (.vladd a) s a.pg (slices a.vd) (fun pos l =>
        Lacc.bits (match a.src with
          | .val ty o => (acc a.va l).addF (if ty.isF then FV.dec (fmtOf ty) (s.val ty o pos l)
              else .fin (decide (elem s ty o pos l < 0)) (elem s ty o pos l).natAbs 0)
          | .lacc st => (acc a.va l).addL (acc st l))) ∧
      Sends (.vlrnd r) s r.pg (s.dsrc.physD r.vd) (fun _ l => widen .fp32 r.vd.w ((acc r.va l).round .fp32 s.smode).1)
        (fun _ l => ((acc r.va l).round .fp32 s.smode).2) ∧
      (s.dsrc.qmask = 0 → exec (.vcond c) s = .next s) ∧
      (s.dsrc.qmask ≠ 0 → Goes (exec (.vcond c) s) fun t => ∃ f v, Flies s t f ∧ f.load = false ∧ f.ws = 0 ∧ f.pw = 0 ∧ f.lanes = [] ∧
        f.dcs = [(c.dc.toNat, v)] ∧ (c.op ≠ .fsum → f.evs = []) ∧
        (match c.op with
         | .or => v = if ∃ u ∈ terms, set u = true then 1 else 0
         | .and => v = if ∀ u ∈ terms, set u = true then 1 else 0
         | .isum => v = BitVec.ofInt 64 (terms.map (tval c.ty)).sum
         | .fmax => v = BitVec.ofNat 64 (terms.foldl (fun m u => fMax .fp32 m (fp u)) 0xFF800000)
         | .fmin => v = BitVec.ofNat 64 (terms.foldl (fun m u => fMin .fp32 m (fp u)) 0x7F800000)
         | .fsum => v = BitVec.ofNat 64 ((terms.foldl (fun k u => k.addF (FV.dec (fmtOf c.ty) u)) Lacc.zero).round .fp32 s.smode).1)) ∧
      (s.cur.side = .die → Goes (exec (.vview vw xa) s) fun t => t = { s with dies := t.dies } ∧ (∀ d, d ≠ s.cur.die → t.die d = s.die d) ∧
        t.dx = { s.dx with regs := { s.dx.regs with views := s.dx.regs.views.set vw.toNat (s.px xa) }, bad := t.dx.bad }) ∧
      (s.cur.side = .seq → vwOk (s.x xa) = true → exec (.vview vw xa) s = .next s) ∧
      (s.cur.side = .seq → vwOk (s.x xa) = false → exec (.vview vw xa) s = .next (s.takeTrap { cause := 0x000B }))

/-- A result is written (R60, R136): the lanes take its writes, each dc register its value, and its reservation ends. Slices and predicates
that it does not name stay as they are. A load's result does not come by this step, and a result that a matrix multiply of its own bundle has
still to read around waits (R70, log 15). The first-event log (R60): a slot's events leave their kinds in the sticky flags; the record is
that of the earliest event: of a smaller BSN, then of a lower slot, then of the first kind in the order INVALID, DIVZERO, OVERFLOW,
UNDERFLOW; nothing else replaces it. -/
def Obligations.ResultLanding : Prop :=
   (∀ (s : State) (d idx : Nat) (f : Flight), (s.die d).flights[idx]? = some f →
      ((f.load = true ∨ (s.die d).mayLand f.bsn f.ws = false) → exec (.vectorResultWrite d idx) s = .next s) ∧
      (f.load = false → (s.die d).mayLand f.bsn f.ws = true → Goes (exec (.vectorResultWrite d idx) s) fun t =>
        let y := s.die d
        let z := t.die d
        t = { s with dies := t.dies } ∧ (∀ e, e ≠ d → t.die e = s.die e) ∧
          z = { y with regs := { y.regs with lanes := z.regs.lanes, dcs := z.regs.dcs }, felogs := z.felogs, parity := z.parity, bad := z.bad,
                       flights := y.flights.eraseIdx idx } ∧
          z.regs.lanes.length = y.regs.lanes.length ∧
          (∀ (pos : Nat) (l : Lane) (w : LaneW), y.regs.lanes[pos]? = some l → f.lanes[pos]? = some w → z.regs.lanes[pos]? = some (l.apply w)) ∧
          (∀ pos : Nat, f.lanes[pos]? = none → z.regs.lanes[pos]? = y.regs.lanes[pos]?) ∧
          (f.dcs = [] → z.regs.dcs = y.regs.dcs) ∧ (∀ k v, f.dcs = [(k, v)] → z.regs.dcs = y.regs.dcs.set k v) ∧
          (f.evs = [] → z.felogs = y.felogs))) ∧
   (∀ (y : Die) (bsn : BitVec 48) (ws : BitVec 512), y.mayLand bsn ws = false ↔ ∃ o ∈ y.mmuls, o.bsn = bsn ∧
      ((o.latched.length < o.rows ∧ sliceSet o.aSl.flatten &&& ws ≠ 0) ∨ (o.add = true ∧ sliceSet o.cSl.flatten &&& ws ≠ 0))) ∧
   (∀ (l : FeLog) (bsn : BitVec 48) (addr : VA) (slot : Nat) (e : Ev),
      let r := l.arrive bsn addr slot e
      let code : Nat := if e.inv then 0 else if e.dz then 2 else if e.ovf then 1 else 3
      let rank (k : Nat) : Nat := if k = 0 then 0 else if k = 2 then 1 else if k = 1 then 2 else 3
      (e.any = false → r = l) ∧
        (e.any = true → r.sinv = (l.sinv || e.inv) ∧ r.sovf = (l.sovf || e.ovf) ∧ r.sdz = (l.sdz || e.dz) ∧ r.sunf = (l.sunf || e.unf) ∧
          r.valid = true ∧
          (l.valid = false ∨ bsn.toNat < l.bsn.toNat ∨ (bsn = l.bsn ∧ slot < l.slot) →
            r.bsn = bsn ∧ r.addr = addr ∧ r.slot = slot ∧ r.kind = code) ∧
          (l.valid = true → (l.bsn.toNat < bsn.toNat ∨ (bsn = l.bsn ∧ l.slot < slot)) →
            r.bsn = l.bsn ∧ r.addr = l.addr ∧ r.slot = l.slot ∧ r.kind = l.kind) ∧
          (l.valid = true → bsn = l.bsn → slot = l.slot → r.kind = if rank code < rank l.kind then code else l.kind)))

/-! ### Rounding and the log -/

/-- Rounding (R44, R47): RNE goes to the nearest integer, a tie to the even one; RTZ towards zero; RDN and RUP down and up by the sign. The
flag says that the result is inexact. NaN, infinity and zero in floating-point arithmetic (R40, R47, R48), in every format with an infinity
and every mode: a NaN operand gives the canonical NaN; ∞ − ∞ and 0 × ∞ give it with INVALID, and a product 0 × ∞ raises it whatever the
addend; a finite nonzero value over zero gives a signed ∞ with DIVZERO; an exact zero sum of opposite zeros is −0 in RDN alone. The special
functions (R53), of FP32, BF16 and FP16 in every mode: a NaN gives the canonical NaN and logs nothing; the zeros, the infinities and +1 give
the table's results with its events, and SQRT, RSQ and LOG2 of a value below −0 NaN with INVALID. -/
def Obligations.RoundingAndSpecialValues : Prop :=
   (∀ (neg : Bool) (m k : Nat),
      let r (mode : RM) : Nat := (roundShift mode neg m k).1
      let floor (n : Nat) : Prop := n * 2 ^ k ≤ m ∧ m < (n + 1) * 2 ^ k
      let ceil (n : Nat) : Prop := m ≤ n * 2 ^ k ∧ n * 2 ^ k < m + 2 ^ k
      (∀ n, 2 * ((m : Int) - (r .rne : Int) * 2 ^ k).natAbs ≤ 2 * ((m : Int) - (n : Int) * 2 ^ k).natAbs) ∧
        (2 * ((m : Int) - (r .rne : Int) * 2 ^ k).natAbs = 2 ^ k → r .rne % 2 = 0) ∧ floor (r .rtz) ∧
        (if neg then ceil (r .rdn) ∧ floor (r .rup) else floor (r .rdn) ∧ ceil (r .rup)) ∧
        ∀ mode, (roundShift mode neg m k).2 = decide (m % 2 ^ k ≠ 0)) ∧
   (∀ (f : Fmt) (m : RM), f ∈ [Fmt.fp8b, .bf16, .fp16, .fp32] → ∀ (a b c : Nat) (s t : Bool),
      let nan (x : Nat) : Prop := FV.dec f x = .nan
      let inf (x : Nat) (s : Bool) : Prop := FV.dec f x = .inf s
      let zero (x : Nat) (s : Bool) : Prop := ∃ e, FV.dec f x = .fin s 0 e
      let bad : Nat × Ev := (f.nanBits, { inv := true })
      (nan a ∨ nan b → (fAdd f m a b).1 = f.nanBits ∧ (fMul f m a b).1 = f.nanBits ∧ (fDiv f m a b).1 = f.nanBits) ∧
        (inf a s → inf b (!s) → fAdd f m a b = bad) ∧ (inf a s → inf b s → fSub f m a b = bad) ∧
        (inf a s → zero b t → fMul f m a b = bad ∧ ∀ np nc, fFma f m np nc a b c = bad) ∧
        (inf a s → inf b t → fDiv f m a b = bad) ∧ (zero a s → zero b t → fDiv f m a b = bad) ∧
        (∀ k e, FV.dec f a = .fin s (k + 1) e → zero b t → fDiv f m a b = (signed f (xor s t) f.infBits, { dz := true })) ∧
        (zero a s → zero b (!s) → fAdd f m a b = (signed f (decide (m = .rdn)) 0, {}))) ∧
   (∀ (f : Fmt) (m : RM), f ∈ [Fmt.bf16, .fp16, .fp32] → ∀ (a : Nat) (s : Bool),
      let one : Nat := f.bias * 2 ^ f.fbits
      let gives (k : SFn) (v : Nat) (e : Ev) : Prop := fSpecial k f m a = (v, e)
      let zero : Prop := ∃ e, FV.dec f a = .fin s 0 e
      let below : Prop := (∃ k e, FV.dec f a = .fin true (k + 1) e) ∨ FV.dec f a = .inf true
      (FV.dec f a = .nan → ∀ k, gives k f.nanBits {}) ∧
        (zero → gives .rcp (signed f s f.infBits) { dz := true } ∧ gives .sqrt (signed f s 0) {} ∧
          gives .rsq (signed f s f.infBits) { dz := true } ∧ gives .exp2 one {} ∧ gives .log2 (signed f true f.infBits) { dz := true } ∧
          gives .tanh (signed f s 0) {}) ∧
        (FV.dec f a = .inf s → gives .rcp (signed f s 0) {} ∧ gives .exp2 (if s then 0 else f.infBits) {} ∧ gives .tanh (signed f s one) {}) ∧
        (FV.dec f a = .inf false → gives .sqrt f.infBits {} ∧ gives .rsq 0 {} ∧ gives .log2 f.infBits {}) ∧
        (below → ∀ k ∈ [SFn.sqrt, .rsq, .log2], gives k f.nanBits { inv := true }) ∧
        (a = one → gives .log2 0 {} ∧ gives .rcp one {} ∧ gives .sqrt one {} ∧ gives .rsq one {}))

/-! ### The M slot -/

/-- The M slot issues (R176, R179, R181 to R187): MSWAP exchanges the planes of the enabled quadrants, and waits behind the weight loads
and MZEROs that are in order before it; MZERO clears their shadow planes, behind the weight loads before it; MLDS, its tokens done, its tile
READY and its blocks aligned and inside the tile, makes its token PEND and the tile busy and takes the weights of each enabled quadrant, with
their events; MMUL, its tokens done and its views fit, makes its token PEND, captures the planes of the enabled quadrants (those of the
shadow, exchanged first, with SW) and the A and ACC slices of its row groups, and latches the activations of the rows that enter before its
first drain (log 15). A plane that MZERO or reset leaves is zero (log 8). What bad parity does is not said here: no slice and no plane of
the die is bad. -/
def Obligations.MatrixIssue : Prop :=
  ∀ (s : State) (a : MldsA) (m : MmulA),
    let y := s.dx
    let on (q : Nat) : Bool := s.dsrc.qmask.getLsbD q
    let idle (tout : Tok) (tin : Toks) : Prop := y.pend tout = false ∧ ∀ k ∈ Toks.named tin, y.pend k = false
    let swapped (u v : List Arr) : Prop := v.length = u.length ∧ ∀ q (r : Arr), u[q]? = some r →
      v[q]? = some (if on q then { r with act := r.shadow, shadow := r.act, badA := r.badS, badS := r.badA, fillA := r.fillS, fillS := r.fillA } else r)
    let t := y.tile a.tw
    let xw := s.px a.xw
    let xs := s.px a.xs
    let at' (x : W64) (q : Nat) : Nat := x.toNat % 2 ^ 32 + q * (x.toNat / 2 ^ 32)
    let weight (q n k : Nat) := weightAt a.wt a.t (fun o b => s.tileRd y t o b) (at' xw q) (at' xs q) k n
    let va := s.dsrc.views.getD m.av.toNat 0
    let vc := s.dsrc.views.getD m.cv.toNat 0
    let pass : Nat := match s.cur.pkt with
      | some p => if p.rep then p.pass else 0
      | none => 0
    let rows := m.rows.toNat + 1
    let slices (name n : Nat) : List Nat := (List.range n).map fun k => renSl s.dsrc.views ((name + k) % 512)
    (y.mq = [] → Goes (exec .mswap s) fun u => OnlyDie s u fun z => z = { y with arrs := z.arrs } ∧ swapped y.arrs z.arrs) ∧
    (y.mq ≠ [] → exec .mswap s = .next s.stall) ∧
    (y.mq = [] → Goes (exec .mzero s) fun u => OnlyDie s u fun z => z = { y with arrs := z.arrs } ∧ z.arrs.length = y.arrs.length ∧
      ∀ q (r : Arr), y.arrs[q]? = some r →
        z.arrs[q]? = some (if on q then { r with shadow := [], badS := false, fillS := none } else r)) ∧
    (y.mq ≠ [] → Goes (exec .mzero s) fun u => OnlyDie s u fun z => z = { y with mq := y.mq ++ [.zero s.dsrc.qmask] }) ∧
    (¬idle a.tout a.tin → exec (.mlds a) s = .next s.stall) ∧ (¬idle m.tout m.tin → exec (.mmul m) s = .next s.stall) ∧
    (idle a.tout a.tin → t.st = .ready →
      (∀ q, q < 4 → on q = true → at' xw q % 64 = 0 ∧ at' xw q + WTy.blockBytes a.wt ≤ t.bytes ∧
        (a.wt.grouped = true → at' xs q % 64 = 0 ∧ at' xs q + 1024 ≤ t.bytes)) → y.vpoison = [] →
      Goes (exec (.mlds a) s) fun u => OnlyDie s u fun z => ∃ ps evs,
        z = { y.setTok a.tout true with tiles := z.tiles, mq := y.mq ++ [.load s.pbsn s.paddr a.tout a.tw.toNat ps evs []] } ∧
        (∀ k, z.tile k = if k = a.tw then { t with busy := true } else y.tile k) ∧
        ps.map (·.1) = (List.range 4).filter on ∧ evs.map (·.1) = (List.range 4).filter on ∧
        (∀ e ∈ ps, ∀ n k, n < 128 → k < 128 → (e.2.getD n []).getD k 0 = BitVec.ofNat 20 (weight e.1 n k).1) ∧
        ∀ e ∈ evs, (e.2.inv = true ↔ ∃ n k, n < 128 ∧ k < 128 ∧ (weight e.1 n k).2.inv = true) ∧
          (e.2.ovf = true ↔ ∃ n k, n < 128 ∧ k < 128 ∧ (weight e.1 n k).2.ovf = true)) ∧
    (idle m.tout m.tin → mviewOk m.aty va vc = true → (m.sw = true → y.mq = []) → y.parity = [] →
      (∀ r ∈ y.arrs, r.badA = false ∧ r.badS = false) →
      Goes (exec (.mmul m) s) fun u =>
        u = { s with dies := u.dies, cur := { s.cur with claimed := u.cur.claimed } } ∧ (∀ d, d ≠ s.cur.die → u.die d = s.die d) ∧
        ∃ o, u.die s.cur.die = { y.setTok m.tout true with arrs := (u.die s.cur.die).arrs, mmuls := y.mmuls ++ [o], lastw := (u.die s.cur.die).lastw } ∧
          (if m.sw then swapped y.arrs (u.die s.cur.die).arrs else (u.die s.cur.die).arrs = y.arrs) ∧
          o.bsn = s.pbsn ∧ o.addr = s.paddr ∧ o.tout = m.tout ∧ o.aty = m.aty ∧ o.add = m.add ∧ o.rows = rows ∧ o.qm = s.dsrc.qmask ∧ o.next = 0 ∧
          o.clip = [] ∧ o.bad = [] ∧ o.hurt = [] ∧
          (∀ q, q < 4 → on q = true →
            let r := y.arrs.getD q Arr.reset
            (q, if m.sw && decide (q < y.arrs.length) then r.shadow else r.act) ∈ o.planes) ∧
          o.aSl = (List.range ((rows + 7) / 8)).map (fun g => slices (aName va m.aty pass g) (ATy.slices m.aty)) ∧
          o.cSl = (List.range ((rows + 7) / 8)).map (fun g => slices (cName vc pass g) 8) ∧
          o.latched = (List.range (min rows (if m.aty = .bf16 then 133 else 266))).map fun i =>
            (quadsOf s.dsrc.qmask).map fun q => (q, rowActs s.dsrc.lanes q i (o.aSl.getD (i / 8) [])))

/-- The M slot completes (R58, R147, R183, R185, R192): the oldest weight load fills the shadow planes, its token is DONE and its tile no
longer busy unless a later load of the tile waits; an MMUL drains its next row: in lanes (m mod 8) × 128 + n of each enabled quadrant the
ACC slices of the row take the column sum, set or added, and no other lane changes; a NaN among them sets the quadrant's NANB bit of the
row's slices; the last row makes the token DONE. Nothing that the row reads is bad. Tokens (R71, R259): a completion makes the slot's token
DONE and no other, unless a higher slot of its bundle named the token too: then it leaves every token. -/
def Obligations.MatrixCompletion : Prop :=
  (∀ (s : State) (d : Nat) (bsn : BitVec 48) (addr : VA) (tout : Tok) (tile : BitVec 8) (ps : List (Nat × Plane)) (evs : List (Nat × Ev)) (r : List MItem),
    (s.die d).mq = .load bsn addr tout tile.toNat ps evs [] :: r → (∀ qm, r.head? ≠ some (.zero qm)) →
    Goes (exec (.mldsComplete d) s) fun t =>
      let y := s.die d
      let z := t.die d
      OnlyDieAt s t d ∧
      z = { y.endTok bsn 3 tout with tiles := z.tiles, arrs := z.arrs, felogs := z.felogs, mq := r } ∧ (evs = [] → z.felogs = y.felogs) ∧
      (∀ k, z.tile k = if k = tile ∧ r.any (MItem.loads tile.toNat) = false then { y.tile k with busy := false } else y.tile k) ∧
      (∀ q (u : Arr), y.arrs[q]? = some u → ∀ p, ps.find? (fun e => e.1 == q) = some (q, p) →
        z.arrs[q]? = some { u with shadow := p, badS := false, fillS := some bsn }) ∧
      ∀ q, ps.find? (fun e => e.1 == q) = none → z.arrs[q]? = y.arrs[q]?) ∧
  (∀ (s : State) (d idx : Nat) (o : MMulOp), (s.die d).mmuls[idx]? = some o → mmulFree (s.die d).mmuls idx = true → o.bad = [] →
    o.hurt = [] → (s.die d).parity = [] → o.clip = [] → o.next < o.latched.length →
    Goes (exec (.mmulRowDrain d idx) s) fun t =>
      let y := s.die d
      let z := t.die d
      let m := o.next
      let last : Prop := o.rows ≤ m + 1
      let ps := o.cSl.getD (m / 8) []
      let row (q : Nat) : List Nat := (((o.latched.getD m []).find? fun e => e.1 == q).map (·.2)).getD []
      let col (q n : Nat) : List (BitVec 20) := (((o.planes.find? fun e => e.1 == q).map (·.2)).getD []).getD n []
      let takes (pos : Nat) : Prop := o.qm.getLsbD (pos / 1024) = true ∧ pos % 1024 / 128 = m % 8
      let val (pos : Nat) (l : Lane) : Nat :=
        (drainVal (ATy.fmt o.aty) o.add (row (pos / 1024)) (col (pos / 1024) (pos % 128)) (l.rd ps)).1
      let nan (q : Nat) : Prop := ∃ pos l, y.regs.lanes[pos]? = some l ∧ pos / 1024 = q ∧ takes pos ∧ (FV.dec .fp32 (val pos l)).isNan = true
      t = { s with dies := t.dies, parts := t.parts } ∧ (∀ e, e ≠ d → t.die e = s.die e) ∧ z.regs.lanes.length = y.regs.lanes.length ∧
      (∀ pos (l : Lane), y.regs.lanes[pos]? = some l → (takes pos → z.regs.lanes[pos]? = some (l.apply (putSlices ps (val pos l)))) ∧
        (¬takes pos → z.regs.lanes[pos]? = some l)) ∧
      (∀ q (u : Arr), y.arrs[q]? = some u → (nan q → z.arrs[q]? = some { u with nanb := u.nanb ||| BitVec.ofNat 64 (2 ^ (ps.headD 0 / 8)) }) ∧
        (¬nan q → z.arrs[q]? = some u)) ∧
      (last → z = { y.endTok o.bsn 3 o.tout with regs := { y.regs with lanes := z.regs.lanes }, arrs := z.arrs, parity := [], felogs := z.felogs,
                                                 mmuls := y.mmuls.eraseIdx idx }) ∧
      (¬last → z = { y with regs := { y.regs with lanes := z.regs.lanes }, arrs := z.arrs, parity := [], felogs := z.felogs, mmuls := z.mmuls } ∧
        ∃ k, z.mmuls = y.mmuls.set idx k ∧ k.next = m + 1 ∧ k.rows = o.rows ∧ k.tout = o.tout ∧
          ∀ i, i < o.latched.length → k.latched[i]? = o.latched[i]?)) ∧
  ∀ (y : Die) (bsn : BitVec 48) (slot : Nat) (t u : Tok) (b : Bool), y.toks.length = 64 →
    (y.setTok t b).pend u = (if u = t then b else y.pend u) ∧
    ((bsn, slot) ∉ y.mutes → y.endTok bsn slot t = y.setTok t false) ∧
    ((bsn, slot) ∈ y.mutes → y.endTok bsn slot t = { y with mutes := y.mutes.erase (bsn, slot) })

/-! ### The LD and SD slots -/

/-- Vault accesses of the die's own scratchpad (R196, R202, R204, R221 to R224, R227, R232): every lane that takes part has an address
without a cause, all of them here and, for what reads, no granule in error. A load waits while the scoreboard of a quadrant has no room for
its lines (log 21). VLD and VLDX bring each lane the bytes at its address; VST and VSTX store each lane's
datum, the highest lane's where two overlap, and no other byte, and the bytes they store have no error any more (R375); a VAMO of lanes that
do not overlap brings each the old bytes and stores the new ones. -/
def Obligations.VaultAccessResults : Prop :=
  ∀ (s : State) (a : LMem) (b : VAmoA),
    let y := s.dx
    let off (ad : Int) : Nat := ad.toNat % 2 ^ 28
    let free (l : List Nat) (ad : Nat → Int) : Prop := RoomFor s l fun pos => off (ad pos)
    let here (pg : PIdx) (n : Nat) (ad : Nat → Int) : Prop := ∀ pos ∈ actives s pg,
      s.vaultCause n (ad pos) = none ∧ (s.vaultTarget (ad pos)).1 = none
    let n := a.vd.w.bits / 8
    let ad (pos : Nat) : Int := laneAt s a.xa a.sc a.vi a.off.toInt pos
    let datum (d : Dst) (pos : Nat) : Nat := (s.laneAt pos).rd (s.dsrc.physD d)
    let stores (i : Instr) : Prop := Goes (exec i s) fun t => OnlyDie s t fun z => z = { y with vault := z.vault, vpoison := z.vpoison } ∧
      (∀ o, (∀ pos ∈ actives s a.pg, o < off (ad pos) ∨ off (ad pos) + n ≤ o) → z.padByte o = y.padByte o ∧ (o ∈ z.vpoison ↔ o ∈ y.vpoison)) ∧
      (∀ pos ∈ actives s a.pg, ∀ k, k < n → off (ad pos) + k ∉ z.vpoison) ∧
      ∀ pos ∈ actives s a.pg, ∀ k, k < n →
        (∀ p ∈ actives s a.pg, pos < p → off (ad pos) + k < off (ad p) ∨ off (ad p) + n ≤ off (ad pos) + k) →
        z.padByte (off (ad pos) + k) = BitVec.ofNat 8 (datum a.vd pos / 256 ^ k)
    let bn := b.vs.w.bits / 8
    let bd (pos : Nat) : Int := laneAt s b.xa b.sc b.vi 0 pos
    let old (pos : Nat) : Nat := bytes y.padByte (off (bd pos)) bn
    let cmp (pos : Nat) : Nat := if b.op = .cas then (s.laneAt pos).rd (s.dsrc.phys (b.vs.start.toNat + b.vs.w.slices) b.vs.w.slices) else 0
    (here a.pg n ad → ∀ i ∈ [Instr.vld a, .vldx a], (¬free (actives s a.pg) ad → exec i s = .next s.stall) ∧
      (free (actives s a.pg) ad → y.vpoison = [] → Loads i s a.pg (s.dsrc.physD a.vd) fun pos => bytes y.padByte (off (ad pos)) n)) ∧
    (here a.pg n ad → ∀ i ∈ [Instr.vst a, .vstx a], stores i) ∧
    (b.glob = false → here b.pg bn bd → ¬free (actives s b.pg) bd → exec (.vamo b) s = .next s.stall) ∧
    (b.glob = false → here b.pg bn bd → free (actives s b.pg) bd → y.vpoison = [] →
      (∀ p ∈ actives s b.pg, ∀ q ∈ actives s b.pg, p ≠ q → off (bd p) + bn ≤ off (bd q) ∨ off (bd q) + bn ≤ off (bd p)) →
      Goes (exec (.vamo b) s) fun t => ∃ f,
        t = { s with dies := t.dies, cur := { s.cur with claimed := (s.cur.slot, f.lanes) :: s.cur.claimed } } ∧
        (∀ d, d ≠ s.cur.die → t.die d = s.die d) ∧
        t.dx = { y with flights := y.flights ++ [f], lastw := t.dx.lastw, vault := t.dx.vault } ∧ f.load = true ∧
        (∀ pos, pos < s.dsrc.lanes.length →
          f.lanes.getD pos {} = if Active s b.pg pos then putSlices (s.dsrc.physD b.vd) (old pos) else {}) ∧
        (∀ pos ∈ actives s b.pg, ∀ k, k < bn → t.dx.padByte (off (bd pos) + k) =
          BitVec.ofNat 8 (amoNew b.op bn (old pos) (BitVec.ofNat 64 (datum b.vs pos)).toNat (BitVec.ofNat 64 (cmp pos)).toNat / 256 ^ k)) ∧
        ∀ o, (∀ pos ∈ actives s b.pg, o < off (bd pos) ∨ off (bd pos) + bn ≤ o) → t.dx.padByte o = y.padByte o)

/-- The causes of a vault address, in their order (R196, R228, R233): VAULT_RANGE outside 35 bits, with a die field beside the own-die bit,
or past the scratchpad of this die; VAULT_FOREIGN for a die outside the gang; VAULT_ALIGN for an unaligned one. Where a copy does not issue
(R211, R239): it waits while a token it names is PEND, 512 commands are in flight or the tile is in use; then the causes DESC_INVALID,
DESC_DIR, COPY_BOX, TILE_UNDEF (of a drain) and TILE_BOUNDS, in this order. Readings: log 15. -/
def Obligations.DieCauses : Prop :=
   (∀ (s : State) (c n : Nat) (a : Int), s.driver s.cur.die = some c →
      let k := a.toNat / 2 ^ 28 % 64
      let own := a.toNat.testBit 34
      let gang := (lDieMask (s.ctx c).lrec).getLsbD k
      let past : Prop := s.padSize s.cur.die < a.toNat % 2 ^ 28 + n
      (a < 0 ∨ 2 ^ 35 ≤ a → s.vaultCause n a = some 0x0105) ∧
        (0 ≤ a → a < 2 ^ 35 →
          (own = true → k ≠ 0 ∨ past → s.vaultCause n a = some 0x0105) ∧
          (own = false → gang = false → s.vaultCause n a = some 0x0106) ∧
          (own = false → gang = true → s.cdn s.cur.die = k → past → s.vaultCause n a = some 0x0105) ∧
          ((own = true ∧ k = 0 ∨ own = false ∧ gang = true ∧ s.cdn s.cur.die = k) → ¬past →
            s.vaultCause n a = if a.toNat % n = 0 then none else some 0x0107))) ∧
   (∀ (s : State) (a : CopyA),
      let y := s.y0
      let t := y.tile a.tn
      let xo := s.px a.xo
      let xb := s.px a.xb
      let busy : Prop := y.pend a.tout = true ∨ (∃ k ∈ Toks.named a.tin, y.pend k = true) ∨ 512 ≤ y.inFlight
      let go : Prop := ¬busy ∧ t.busy = false ∧ t.pend = false ∧ t.st ≠ .filling
      let fault (c : BitVec 16) : Prop := (t.st ≠ .draining → exec (.ccopyIn a) s = .next (s.dieFault c 0 [])) ∧ exec (.ccopyOut a) s = .next (s.dieFault c 0 [])
      (busy → exec (.ccopyIn a) s = .next s.stall ∧ exec (.ccopyOut a) s = .next s.stall) ∧
      (t.st = .filling ∨ t.st = .draining ∨ t.busy = true ∨ t.pend = true → exec (.ccopyIn a) s = .next s.stall) ∧
      (t.st = .filling ∨ (t.st = .empty ∧ t.pend = true) → exec (.ccopyOut a) s = .next s.stall) ∧
      (go → y.desc a.ds = none → fault 0x010C) ∧
      ∀ r, y.desc a.ds = some r → go →
        (t.st ≠ .draining → dDir r &&& 1 = 0 → exec (.ccopyIn a) s = .next (s.dieFault 0x010D 0 [])) ∧
        (dDir r &&& 2 = 0 → exec (.ccopyOut a) s = .next (s.dieFault 0x010D 0 [])) ∧
        (dDir r = 3 → boxBad r xo xb = true → fault 0x010E) ∧
        (dDir r = 3 → boxBad r xo xb = false →
          (t.st = .empty → exec (.ccopyOut a) s = .next (s.dieFault 0x0101 0 [])) ∧
          (t.bytes < boxT xb + dEsz r * boxSize xb → t.st ≠ .empty → fault 0x0102)))

/-- VLDT, SPILL, FILL and VPREF (R200, R206, R212, R229 to R231): VLDT brings each lane the two tile bytes at its offset; SPILL and FILL move
slices to and from the lane's spill area, inside it; VPREF changes no register and no byte of memory, and raises nothing: where it has one
lane, whose address translates to memory that the ways cache and hold without error, the line of it stands in the ways, every byte valid.
That it never drops such a prefetch, as R229 lets it, is the model's choice (log 22). An error that it meets it does not consume: beside the
ways, at most the banks and the poison of memory change, and nothing but the ways where no line and no byte of memory is bad (R381).
The scoreboard has room for a load (R204); while it has none, VLDT and FILL wait. -/
def Obligations.TileAndSpillResults : Prop :=
  ∀ (s : State) (a : VLdtA) (b : SpillA) (p : VPrefA),
    let y := s.dx
    let t := y.tile a.tn
    let o (pos : Nat) : Nat := (s.px a.xa).toNat % 2 ^ 32 + s.val .n32 a.vi pos (s.laneAt pos) * 32 + pos % 64 * 2 ^ (a.sc.toNat + 6) +
      2 * (pos % 1024 / 64)
    let s0 := b.sps.toNat + (s.px b.xo).toNat
    let n := b.nsm1.toNat + 1
    let freeT : Prop := RoomFor s (actives s a.pg) o
    let freeF : Prop := RoomFor s (actives s b.pg) fun pos => 2048 * pos + s0 / 2
    let inTile : Prop := ∀ pos ∈ actives s a.pg, o pos % 2 = 0 ∧ o pos + 2 ≤ t.bytes
    let bad (pa : Nat) : Prop := y.cbad pa = true ∨ s.poisonAt (pa / 128 * 128) = true ∨ s.poisonAt (pa / 128 * 128 + 64) = true
    ((t.st = .ready ∨ t.st = .draining) → inTile → ¬freeT → exec (.vldt a) s = .next s.stall) ∧
    (s0 + b.nsm1.toNat ≤ 4095 → ¬freeF → exec (.fill b) s = .next s.stall) ∧
    ((t.st = .ready ∨ t.st = .draining) → y.vpoison = [] → freeT → inTile →
      Loads (.vldt a) s a.pg (s.dsrc.phys a.start.toNat 4) fun pos => bytes (fun i => y.padByte (s.tileAddr t i)) (o pos) 2) ∧
    (s0 + b.nsm1.toNat ≤ 4095 → freeF → y.sbad = [] → Loads (.fill b) s b.pg (s.dsrc.phys b.ss.toNat n) fun pos =>
      (Tbl.get 0 y.spill pos).toNat / 16 ^ s0 % 16 ^ n) ∧
    (s0 + b.nsm1.toNat ≤ 4095 → y.vitrine = [] → Goes (exec (.spill b) s) fun u => OnlyDie s u fun z =>
      z = { y with spill := z.spill, sbad := z.sbad } ∧
      ∀ pos, Tbl.get 0 z.spill pos = if pos ∈ actives s b.pg then
          let m : BitVec 16384 := BitVec.ofNat 16384 ((16 ^ n - 1) * 16 ^ s0)
          (Tbl.get 0 y.spill pos &&& ~~~m) ||| BitVec.ofNat 16384 ((s.laneAt pos).rd (s.dsrc.phys b.ss.toNat n) * 16 ^ s0)
        else Tbl.get 0 y.spill pos) ∧
    Goes (exec (.vpref p) s) (fun u =>
      let z := u.dx
      u = { s with dies := u.dies, errs := u.errs, poison := u.poison } ∧ (∀ d, d ≠ s.cur.die → u.die d = s.die d) ∧
      z = { y with cache := z.cache, cpoison := z.cpoison, tlb := z.tlb } ∧
      (y.cpoison = [] → (∀ x, s.poisonAt x = false) → OnlyDie s u fun z => z = { y with cache := z.cache, tlb := z.tlb }) ∧
      ∀ pos pa e, actives s p.pg = [pos] →
        let ad := laneAt s p.xa p.sc p.vi p.off.toInt pos
        0 ≤ ad → ad < 2 ^ 56 → s.translate y.tlb (s.dieXlat s.cur.die) .load false ad.toNat = .ok (pa, e) → s.cached s.cur.die pa false = true →
        ¬bad pa → ∃ l, z.cline pa = some l ∧ l.valid = BitVec.allOnes 128)

/-- Global lane accesses issue (R204, R221, R229, R232, R309, R359): while no lane of the die is parked or held, with every address of a lane that
takes part below 2^56 and aligned (and, for VAMO, in no speculative run, whose VAMO waits), one access per lane enters the die's order, in lane
order, with its address, size and operation; a load and an atomic, for which the scoreboards have room, hold their destination slices, and
wait while there is none. A store of a speculative run with a lane in the host or doorbell window waits. -/
def Obligations.GlobalLaneIssue : Prop :=
  ∀ (s : State) (a : LMem) (b : VAmoA),
    let y := s.dx
    let issues (i : Instr) (pg : PIdx) (n : Nat) (ad : Nat → Int) (dst : List Nat) (op : Nat → LOp) (may : Prop) : Prop :=
      y.ring = [] → y.heldLanes = [] → (∀ pos ∈ actives s pg, 0 ≤ ad pos ∧ ad pos < 2 ^ 56 ∧ (ad pos).toNat % n = 0) →
      (¬may → exec i s = .next s.stall) ∧
      (may → Goes (exec i s) fun t => t = { s with dies := t.dies, cur := { s.cur with claimed := t.cur.claimed } } ∧
        (∀ d, d ≠ s.cur.die → t.die d = s.die d) ∧ ∃ new : List GAcc,
        t.dx = { y with gq := y.gq ++ new, accSeq := y.accSeq + new.length, resv := t.dx.resv, lastw := t.dx.lastw } ∧
        new.map (fun g => (g.lane, g.va, g.size, g.op, g.dst)) = (actives s pg).map (fun pos => (pos, (ad pos).toNat, n, op pos, dst)) ∧
        (∀ (i : Nat) (g : GAcc), new[i]? = some g → g.sn = y.accSeq + i ∧ g.bsn = s.pbsn ∧ g.slot = s.cur.slot) ∧
        (dst ≠ [] → actives s pg ≠ [] → sliceSet dst ≠ 0 →
          t.dx.resv = y.resv ++ [⟨s.pbsn, s.cur.slot, s.dsrc.qmask, sliceSet dst⟩]))
    let ad (pos : Nat) : Int := laneAt s a.xa a.sc a.vi a.off.toInt pos
    let datum (d : Dst) (pos : Nat) : W64 := BitVec.ofNat 64 ((s.laneAt pos).rd (s.dsrc.physD d))
    let cmp (pos : Nat) : W64 :=
      if b.op = .cas then BitVec.ofNat 64 ((s.laneAt pos).rd (s.dsrc.phys (b.vs.start.toNat + b.vs.w.slices) b.vs.w.slices)) else 0
    let bd := laneAt s b.xa b.sc b.vi 0
    issues (.vldg a) a.pg (a.vd.w.bits / 8) ad (s.dsrc.physD a.vd) (fun _ => .load) (RoomFor s (actives s a.pg) fun pos => (ad pos).toNat) ∧
      issues (.vstg a) a.pg (a.vd.w.bits / 8) ad [] (fun pos => .store (datum a.vd pos))
        (∀ pos ∈ actives s a.pg, s.specWindow s.cur.die (ad pos).toNat = false) ∧
      (b.glob = true → s.specDie s.cur.die = true → exec (.vamo b) s = .next s.stall) ∧
      (b.glob = true → s.specDie s.cur.die = false →
        issues (.vamo b) b.pg (b.vs.w.bits / 8) bd (s.dsrc.physD b.vd) (fun pos => .amo b.op (datum b.vs pos) (cmp pos))
          (RoomFor s (actives s b.pg) fun pos => (bd pos).toNat))

/-- Lane accesses are performed (R221, R224, R228, R229, R251, R252): load data land; a translated global access that no earlier one holds back,
in plain memory without poison that the die does not cache, moves its bytes at home; where a line of the ways holds dirty bytes of it, a load
sees those; a store of it that a line of the ways holds changes the bytes there too, which are dirty no more; a store to memory that the die
caches changes that line alone; a reply of another die's scratchpad moves the bytes there. -/
def Obligations.LaneAccessPerformed : Prop :=
  ∀ (s : State) (d idx : Nat),
    let y := s.die d
    (∀ f, y.flights[idx]? = some f → f.load = true → y.mayLand f.bsn f.ws = true → f.evs = [] → f.dcs = [] →
      Goes (exec (.loadDataReturn d idx) s) fun t => let z := t.die d
        OnlyDieAt s t d ∧ z = { y with regs := { y.regs with lanes := z.regs.lanes }, parity := z.parity, bad := z.bad, replayQ := z.replayQ,
                                       flights := y.flights.eraseIdx idx } ∧
        (∀ (pos : Nat) (l : Lane) (w : LaneW), y.regs.lanes[pos]? = some l → f.lanes[pos]? = some w → z.regs.lanes[pos]? = some (l.apply w))) ∧
    (∀ g pa, y.flights = [] → y.gq[idx]? = some g → g.pa = some pa → y.gqFree idx = true → y.mayLand g.bsn (sliceSet g.dst) = true →
      g.keep = BitVec.allOnes 2048 → Plain s pa g.size → s.poisonIn pa g.size = false → s.cached d pa g.dev = false → s.specDie d = false →
      let landed (t : State) : Prop := t = { s with dies := t.dies, mem := t.mem } ∧ (∀ e, e ≠ d → t.die e = s.die e) ∧
        (t.die d).gq = y.gq.eraseIdx idx ∧ (t.die d).regs.lanes = y.regs.lanes.modify g.lane fun l => l.apply (putSlices g.dst (loaded s pa g.size))
      (g.op = .load → y.dirtyIn pa g.size = false → Goes (exec (.loadDataReturn d idx) s) fun t => landed t ∧ t.mem = s.mem) ∧
      (∀ l, g.op = .load → y.cline pa = some l → y.cbad pa = false → pa % 128 + g.size ≤ 128 → Goes (exec (.loadDataReturn d idx) s) fun t =>
        (t.die d).gq = y.gq.eraseIdx idx ∧ ∃ v, (t.die d).regs.lanes = y.regs.lanes.modify g.lane (fun l => l.apply (putSlices g.dst v)) ∧
          ∀ k, k < g.size → BitVec.ofNat 8 (v / 256 ^ k) =
            if l.dirty.getLsbD (pa % 128 + k) then l.data.extractLsb' (8 * (pa % 128 + k)) 8 else s.memByte (pa + k)) ∧
      ∀ f b c, g.op = .amo f b c → y.dirtyIn pa g.size = false → Goes (exec (.loadDataReturn d idx) s) fun t => landed t ∧
        Stored s t pa g.size (amoNew f g.size (loaded s pa g.size) b.toNat c.toNat)) ∧
    (∀ g pa v, y.gq[idx]? = some g → g.pa = some pa → g.op = .store v → y.gqFree idx = true → s.specDie d = false →
      (s.cached d pa g.dev = false → Plain s pa g.size → Goes (exec (.storePerformed (.die d) idx) s) fun t =>
        t = { s with dies := t.dies, mem := t.mem } ∧ (t.die d).gq = y.gq.eraseIdx idx ∧ Stored s t pa g.size v.toNat ∧
        ∀ l c, y.cline pa = some l → pa % 128 + g.size ≤ 128 → s.driver d = some c → ∃ m, (t.die d).cline pa = some m ∧ ∀ k, k < g.size →
          m.dirty.getLsbD (pa % 128 + k) = false ∧ m.valid.getLsbD (pa % 128 + k) = true ∧
            m.data.extractLsb' (8 * (pa % 128 + k)) 8 = BitVec.ofNat 8 (v.toNat / 256 ^ k)) ∧
      (s.cached d pa g.dev = true → pa % 128 + g.size ≤ 128 → Goes (exec (.storePerformed (.die d) idx) s) fun t =>
        OnlyDieAt s t d ∧ (t.die d).gq = y.gq.eraseIdx idx ∧ ∃ l, (t.die d).cline pa = some l ∧
          ∀ k, k < g.size → l.dirty.getLsbD (pa % 128 + k) = true ∧ l.valid.getLsbD (pa % 128 + k) = true ∧
            l.data.extractLsb' (8 * (pa % 128 + k)) 8 = BitVec.ofNat 8 (v.toNat / 256 ^ k))) ∧
    ∀ r, y.rq[idx]? = some r → rqFree y.rq idx = true → y.mayLand r.bsn (sliceSet r.dst) = true → r.off + r.size ≤ s.padSize r.die →
      r.keep = BitVec.allOnes 2048 → (s.die r.die).vpoison = [] → r.die ≠ d →
      (r.op = .load → Goes (exec (.remoteVaultReply d idx) s) fun t => t = { s with dies := t.dies } ∧ (t.die d).rq = y.rq.eraseIdx idx ∧
        (∀ o, (t.die r.die).padByte o = (s.die r.die).padByte o) ∧
        (t.die d).regs.lanes = y.regs.lanes.modify r.lane fun l => l.apply (putSlices r.dst (bytes (s.die r.die).padByte r.off r.size))) ∧
      ∀ v, r.op = .store v → r.dst = [] → Goes (exec (.remoteVaultReply d idx) s) fun t => t = { s with dies := t.dies } ∧
        (t.die d).rq = y.rq.eraseIdx idx ∧ (t.die d).regs = y.regs ∧ (∀ k, k < r.size → (t.die r.die).padByte (r.off + k) = BitVec.ofNat 8 (v.toNat / 256 ^ k)) ∧
        ∀ o, (o < r.off ∨ r.off + r.size ≤ o) → (t.die r.die).padByte o = (s.die r.die).padByte o

/-- A walk completes (R359, R360, R361, R364): every access of the die that waits on the page takes its translation; a lane whose
translation fails, of a context that runs no prediction, enters the retry ring with its walk code and marks its destination slices. Lanes take
ring entries in the order of their accesses: while an earlier access waits for another page's walk, a lane that fails keeps its code and
takes none. -/
def Obligations.WalkResults : Prop :=
  ∀ (s : State) (d c vpage : Nat), s.driver d = some c →
    let y := s.die d
    let waits (a : GAcc) : Bool := a.pa.isNone && a.bad.isNone && a.va / 2 ^ 16 == vpage
    let tr (a : GAcc) := s.translate [] (s.ctxXlat c) a.kind a.isAmo a.va
    y.heldLanes = [] →
    ((∀ a ∈ y.gq, a.bad = none ∧ (waits a = true → ∃ r, tr a = .ok r)) →
      Goes (exec (.translationWalkComplete d vpage) s) fun t => OnlyDieAt s t d ∧ t.die d = { y with gq := (t.die d).gq, tlb := (t.die d).tlb } ∧
        (t.die d).gq.length = y.gq.length ∧ ∀ (i : Nat) (a : GAcc), y.gq[i]? = some a →
          (waits a = false → (t.die d).gq[i]? = some a) ∧
          ∀ pa e, waits a = true → tr a = .ok (pa, e) → (t.die d).gq[i]? = some { a with pa := some pa }) ∧
    (∀ b r, y.gq = b :: r → b.pa = none → b.bad = none → b.va / 2 ^ 16 ≠ vpage →
      Goes (exec (.translationWalkComplete d vpage) s) fun t => OnlyDieAt s t d ∧ t.die d = { y with gq := (t.die d).gq, tlb := (t.die d).tlb } ∧
        (t.die d).gq.length = y.gq.length ∧ ∀ (i : Nat) (a : GAcc), y.gq[i]? = some a →
          (waits a = false → (t.die d).gq[i]? = some a) ∧
          (∀ pa e, waits a = true → tr a = .ok (pa, e) → (t.die d).gq[i]? = some { a with pa := some pa }) ∧
          ∀ w, waits a = true → tr a = .error w → (t.die d).gq[i]? = some { a with bad := some w }) ∧
    ∀ a w, y.gq = [a] → waits a = true → tr a = .error w → y.ring = [] → (s.ctx c).spec = none → y.rq = [] → a.dst ≠ [] →
      Goes (exec (.translationWalkComplete d vpage) s) fun t => (t.die d).gq = [] ∧ (t.die d).ring = [(y.ringNext % s.ringSize, { acc := a, walk := w })] ∧
        (t.die d).ringNext = (y.ringNext % s.ringSize + 1) % s.ringSize ∧ (t.die d).heldLanes = [] ∧
        (t.die d).marks = y.marks ++ [(a.lane, sliceSet a.dst)] ∧ (t.die d).regs = y.regs ∧ t.mem = s.mem

/-! ### The C slot and the copy engine -/

/-- CDESC (R14, R216, R218, R236, R244, R309): at the sequencer a record past the top of SLM traps with SLM_RANGE, and a prediction that
would read its LAUNCHID or a don't-care argument word waits, which is the model's deduction (log 21); each die sets its slot from the
packet: the record where the code is zero, else invalid, and the code. The C slot's other instructions (R201, R209 to R211, R243, R244):
TDEF, TREL and TCFG set a tile that is not in use; CSPLIT, once the slots before it have completed, sets the split and drops the bytes above
it, or leaves it and keeps the code of the first condition that fails; CSTAT sends its word to a dc register. The code of a CSPLIT (R201): 1
while the die caches a line, 2 for a tile in use or beyond the new scratchpad, 3 for more than 15 ways; that they come in this order is a
reading (log 15). -/
def Obligations.DescriptorTileAndSplitResults : Prop :=
   (∀ (s : State) (ds : BitVec 6) (slma : BitVec 12),
      (s.cur.side = .seq → slma.toNat * 64 + 64 ≤ s.slmSize →
        (s.cx.spec = none → exec (.cdesc ds slma) s = .next s) ∧
        (s.cx.specSlm (slma.toNat * 64) 64 = true → exec (.cdesc ds slma) s = .next s.stall)) ∧
      (s.cur.side = .seq → s.slmSize < slma.toNat * 64 + 64 → exec (.cdesc ds slma) s = .next (s.takeTrap { cause := 0x0006 })) ∧
      ∀ p r k, s.cur.side = .die → s.cur.pkt = some p → p.desc = some (r, k) → Goes (exec (.cdesc ds slma) s) fun t =>
        OnlyDie s t fun z => z = { s.dx with descs := z.descs, bad := z.bad } ∧ ∀ n : BitVec 6,
          Tbl.get {} z.descs n.toNat = if n = ds then { record := if k = 0 then some r else none, code := k } else Tbl.get {} s.dx.descs n.toNat) ∧
   (∀ (s : State) (tn : BitVec 8) (offs : BitVec 16) (size : BitVec 13) (swz keep : Bool) (nw : BitVec 5) (dc : BitVec 2) (k : CStatK),
      let y := s.dx
      let sets (i : Instr) (f : Tile → Tile) : Prop := Goes (exec i s) fun t => OnlyDie s t fun z => z = { y with tiles := z.tiles, bad := z.bad } ∧
        ∀ n, z.tile n = if n = tn then f (y.tile n) else y.tile n
      let top := nw.toNat * s.wayBytes
      ((s.y0.tile tn).inUse = false →
        (offs.toNat * 4096 + size.toNat * 4096 ≤ s.padSize s.cur.die →
          sets (.tdef tn offs size swz keep) fun t => { t with st := if keep then .ready else .empty, swz := swz, size := size, off := offs }) ∧
        sets (.trel tn) (fun t => { t with st := .empty, size := 0 }) ∧ sets (.tcfg tn swz) (fun t => { t with st := .empty, swz := swz })) ∧
      ((s.y0.tile tn).inUse = true → ∀ i ∈ [Instr.tdef tn offs size swz keep, .trel tn, .tcfg tn swz], exec i s = .next s.stall) ∧
      (y.slotsDone s.pbsn = true → (s.splitCode nw.toNat = 0 → Goes (exec (.csplit nw) s) fun t => OnlyDie s t fun z =>
          z = { y with w := BitVec.ofNat 4 nw.toNat, wcode := 0, vault := z.vault, vpoison := z.vpoison } ∧
          ∀ o, z.padByte o = if o < top then y.padByte o else 0) ∧
        (s.splitCode nw.toNat ≠ 0 → Goes (exec (.csplit nw) s) fun t => OnlyDie s t fun z => z = { y with wcode := s.splitCode nw.toNat })) ∧
      Goes (exec (.cstat dc k) s) fun t => ∃ f, Flies s t f ∧ f.ws = 0 ∧ f.pw = 0 ∧ f.lanes = [] ∧ f.dcs = [(dc.toNat, s.y0.statWord k)]) ∧
   (∀ (s : State) (w : Nat),
      let y := s.dx
      let outside : Prop := ∃ e ∈ y.tiles, e.2.inUse = true ∨ (e.2.size ≠ 0 ∧ w * s.wayBytes < e.2.base + e.2.bytes)
      (y.cache ≠ [] → s.splitCode w = 1) ∧ (y.cache = [] → outside → s.splitCode w = 2) ∧
        (y.cache = [] → ¬outside → s.splitCode w = if 15 < w then 3 else 0))

/-- Copies, multicasts and flushes issue (R71, R179, R211 to R214, R237 to R242, R309): with their tokens done, fewer than 512 commands in flight, a
valid descriptor of the direction, a box that fits it and the tile, and the tile free for the use, the command joins the engine with private
copies of its operands, its token is PEND, and the tile is EMPTY with a fill pending, or DRAINING; on a die that a multicast's mask leaves out
the token is complete at issue, and nothing else happens. A drain of a speculative run with an element in the host or doorbell window waits.
That a CFLUSH takes in the global accesses of its own bundle, too, is a reading of R242 (log 21). -/
def Obligations.CopyIssue : Prop :=
  ∀ (s : State) (a : CopyA) (m : McastA) (tout : Tok) (tin : Toks) (inv : Bool) (r : BitVec 512),
    let y := s.y0
    let ready (t : Tok) (l : List Tok) : Prop := y.pend t = false ∧ (∀ k ∈ l, y.pend k = false) ∧ y.inFlight < 512
    let fits (ds : BitVec 6) (dir : Nat) (tn : BitVec 8) (xo xb : W64) : Prop := (Tbl.get {} y.descs ds.toNat).record = some r ∧ dDir r &&& dir ≠ 0 ∧
      boxBad r xo xb = false ∧ boxT xb + dEsz r * boxSize xb ≤ (y.tile tn).bytes
    let free (t : Tile) : Prop := (t.st = .empty ∨ t.st = .ready) ∧ t.busy = false ∧ t.pend = false
    let joins (i : Instr) (t : Tok) (tile : Option (BitVec 8 × (Tile → Tile))) (c : Cmd → Prop) : Prop :=
      Goes (exec i s) fun u => OnlyDie s u fun z => ∃ k, z = { s.dx.setTok t true with tiles := z.tiles, cmds := s.dx.cmds ++ [k] } ∧
        (∀ n, z.tile n = match tile with
          | some (tn, f) => if n = tn then f (s.dx.tile n) else s.dx.tile n
          | none => s.dx.tile n) ∧ k.tout = t ∧ k.bsn = s.pbsn ∧ k.slot = s.cur.slot ∧ c k
    let copies (tn : BitVec 8) (xo xb : Reg) (k : Cmd) : Prop := k.tile = tn.toNat ∧ k.desc = r ∧ k.xo = s.px xo ∧ k.xb = s.px xb ∧ k.buf = none ∧ k.pos = 0
    let filling (t : Tok) (e : Tile) : Tile := { e with st := .empty, pend := true, ownv := true, owner := t }
    (ready a.tout (Toks.named a.tin) → fits a.ds 1 a.tn (s.px a.xo) (s.px a.xb) → free (y.tile a.tn) →
      joins (.ccopyIn a) a.tout (some (a.tn, filling a.tout)) fun k =>
        copies a.tn a.xo a.xb k ∧ k.kind = .copyIn ∧ k.dsel = a.dsel ∧ k.started = false) ∧
    (ready a.tout (Toks.named a.tin) → fits a.ds 2 a.tn (s.px a.xo) (s.px a.xb) → (y.tile a.tn).st = .ready ∨ (y.tile a.tn).st = .draining →
      ((∃ k, copies a.tn a.xo a.xb k ∧ s.specDrain s.cur.die k = true) → exec (.ccopyOut a) s = .next s.stall) ∧
      ((∀ k, copies a.tn a.xo a.xb k → s.specDrain s.cur.die k = false) → joins (.ccopyOut a) a.tout (some (a.tn, fun e => { e with st := .draining, ownv := true, owner := a.tout })) fun k =>
        copies a.tn a.xo a.xb k ∧ k.kind = .copyOut ∧ k.dsel = a.dsel ∧ k.started = true)) ∧
    (ready m.tout (McastA.named m) → (s.px m.xm).toNat < 2 ^ (s.dieGang s.cur.die).length →
      (s.cur.die ∈ s.mcastDies (s.px m.xm) → fits m.ds 1 m.tn (s.px m.xo) (s.px m.xb) → free (y.tile m.tn) →
        joins (.cmcast m) m.tout (some (m.tn, filling m.tout)) fun k =>
          copies m.tn m.xo m.xb k ∧ k.rpos = 0 ∧ k.part = [] ∧ k.kind = .mcast (s.px m.xm) (s.mcastDies (s.px m.xm)) ∧ k.started = false) ∧
      (s.cur.die ∉ s.mcastDies (s.px m.xm) → descCause (y.desc m.ds) 1 (s.px m.xo) (s.px m.xb) = none →
        Goes (exec (.cmcast m) s) fun u => OnlyDie s u fun z => z = s.dx.setTok m.tout false)) ∧
    (ready tout (Toks.named tin) → joins (.cflush tout tin inv) tout none fun k => k.kind = .flush inv ∧ k.limit = s.dx.accSeq)

/-- Fills (R208, R211, R214, R219, R220, R238, R260, R261, R364): a pending fill starts, a multicast's once its source has been read; a
multicast's lowest die reads the source, an element or 64 bytes of a bulk copy at a time and then what is left, once every die that takes part
has issued it, for all of them, and the lane stores of earlier bundles are performed. What is read next lies in no page whose walk a lane of
the die waits for. A started fill moves its elements one at a time, or 64 bytes of a bulk copy, and what is left when it completes: each position
of the box, outside pad positions, goes from the source as it then stands into the tile through the tile's layout, a pad position with PADV
under PADW and not at all without; a multicast writes what was read for it. At the completion the tile is READY and the token DONE. What
moves when is log 5's. -/
def Obligations.FillResults : Prop :=
  ∀ (s : State) (d idx : Nat) (c : Cmd), (s.die d).cmds[idx]? = some c →
    let y := s.die d
    let tn := BitVec.ofNat 8 c.tile
    let tl := y.tile tn
    let n := if dBulk c.desc then 64 / dEsz c.desc else 1
    let tiled (z : Die) (i b v : Nat) : Prop := z.padByte (s.tileAddr tl (b + i)) = BitVec.ofNat 8 (v / 256 ^ i)
    let wrote (z : Die) (lo m : Nat) : Prop :=
      (∀ k, lo ≤ k → k < lo + m → (c.isPad k = false → ∃ v, s.copyRead d (c.va k) (dEsz c.desc) = .ok v ∧ ∀ i, i < dEsz c.desc → tiled z i (c.tbyte k) v) ∧
        (c.isPad k = true → ∀ i, i < dEsz c.desc → if dPadW c.desc then tiled z i (c.tbyte k) (dPadv c.desc) else
          z.padByte (s.tileAddr tl (c.tbyte k + i)) = y.padByte (s.tileAddr tl (c.tbyte k + i)))) ∧
      ∀ o, (∀ k i, lo ≤ k → k < lo + m → i < dEsz c.desc → o ≠ s.tileAddr tl (c.tbyte k + i)) → z.padByte o = y.padByte o
    let ends (z : Die) : Prop := z = { y.endTok c.bsn c.slot c.tout with vault := z.vault, vpoison := z.vpoison, tiles := z.tiles, cmds := y.cmds.eraseIdx idx } ∧
      ∀ k, z.tile k = if k = tn then { y.tile k with st := .ready, pend := false, ownv := (y.tile k).ownv && (y.tile k).owner != c.tout } else y.tile k
    ((c.kind = .copyIn ∨ ∃ m ds, c.kind = .mcast m ds ∧ c.buf ≠ none) → c.started = false → s.starts d = true →
      Goes (exec (.fillStart d idx) s) fun t => OnlyDieAt s t d ∧
        t.die d = { y with tiles := (t.die d).tiles, cmds := y.cmds.set idx { c with started := true } } ∧
        ∀ k, (t.die d).tile k = if k = tn then { y.tile k with st := .filling, pend := false } else y.tile k) ∧
    (∀ m ds l, c.kind = .mcast m ds → ds.head? = some d → ds.Nodup → c.buf = none → s.starts d = true → y.storesDone c.bsn = true →
      s.mcastTurn d idx c ds = true → (∀ e ∈ ds, (s.die e).cmds.any (s.mate d c e) = true) →
      (c.started = false → c.rpos < boxSize c.xb → s.copyWaits d c c.rpos n = false → s.fillData d c c.rpos n = .ok l →
        Goes (exec (.fillStart d idx) s) fun t => OnlyDieAt s t d ∧
          t.die d = { y with cmds := y.cmds.set idx { c with rpos := c.rpos + n, part := c.part ++ l } }) ∧
      (s.copyWaits d c c.rpos (boxSize c.xb - c.rpos) = false → s.fillData d c c.rpos (boxSize c.xb - c.rpos) = .ok l →
      Goes (exec (.cmcastReadStart d idx) s) fun t => t = { s with dies := t.dies } ∧ (∀ e, e ∉ ds → t.die e = s.die e) ∧
        ∀ e ∈ ds, ∃ i k, (s.die e).cmds.findIdx? (s.mate d c e) = some i ∧ (s.die e).cmds[i]? = some k ∧
          t.die e = { s.die e with cmds := (s.die e).cmds.set i { k with buf := some (c.part ++ l), desc := c.desc, xo := c.xo, xb := c.xb } })) ∧
    (∀ l, c.kind = .copyIn → c.started = true → c.buf = none → y.storesDone c.bsn = true →
      (c.pos < boxSize c.xb → s.copyWaits d c c.pos n = false → s.fillData d c c.pos n = .ok l → Goes (exec (.fillStart d idx) s) fun t => OnlyDieAt s t d ∧
        t.die d = { y with vault := (t.die d).vault, vpoison := (t.die d).vpoison, cmds := y.cmds.set idx { c with pos := c.pos + n } } ∧ wrote (t.die d) c.pos n) ∧
      (c.detached = false → s.copyWaits d c c.pos (boxSize c.xb - c.pos) = false → s.fillData d c c.pos (boxSize c.xb - c.pos) = .ok l → Goes (exec (.copyFillComplete d idx) s) fun t =>
        OnlyDieAt s t d ∧ ends (t.die d) ∧ wrote (t.die d) c.pos (boxSize c.xb - c.pos))) ∧
    ∀ m ds l, c.kind = .mcast m ds → c.started = true → c.detached = false → c.buf = some l →
      let moved := (l.drop c.pos).take (boxSize c.xb - c.pos)
      moved.Pairwise (fun e f => e.1 + dEsz c.desc ≤ f.1) →
      Goes (exec (.copyFillComplete d idx) s) fun t => OnlyDieAt s t d ∧ ends (t.die d) ∧
        (∀ e ∈ moved, ∀ i, i < dEsz c.desc → tiled (t.die d) i e.1 e.2) ∧
        ∀ o, (∀ e ∈ moved, ∀ i, i < dEsz c.desc → o ≠ s.tileAddr tl (e.1 + i)) → (t.die d).padByte o = y.padByte o

/-- Drains (R209, R211, R219, R238, R260, R261, R364): a started drain, once the lane stores of earlier bundles are performed and where no lane
of the die waits for the walk of a page that it writes next, writes its elements in order; it moves them one at a time, or 64 bytes of a bulk copy, and what is left when it completes. An element outside pad positions whose
address translates to plain memory, of a context that runs no prediction, stores the tile's bytes there and no other byte of memory. At the
completion the token is DONE, and the tile READY and no longer owned after the last drain of it; while others are in flight it stays
DRAINING, owned by the last of them where the one that ends owned it. What moves when is log 5's. -/
def Obligations.DrainResults : Prop :=
  ∀ (s : State) (d idx : Nat) (c : Cmd), (s.die d).cmds[idx]? = some c → c.kind = .copyOut → c.started = true →
    let y := s.die d
    let tn := BitVec.ofNat 8 c.tile
    let sends (k pa : Nat) (e : TlbE) : Prop := c.isPad k = false ∧ s.translate y.tlb (s.dieXlat d) .store false (c.va k) = .ok (pa, e) ∧
      s.specDie d = false ∧ Plain s pa (dEsz c.desc) ∧ y.cache = []
    let stores (t : State) (k pa : Nat) : Prop := t = { s with dies := t.dies, mem := t.mem } ∧ (∀ e, e ≠ d → t.die e = s.die e) ∧
      Stored s t pa (dEsz c.desc) (bytes (fun i => y.padByte (s.tileAddr (y.tile tn) i)) (c.tbyte k) (dEsz c.desc))
    y.vpoison = [] → y.storesDone c.bsn = true →
    (∀ u, c.detached = false → s.copyWaits d c c.pos (boxSize c.xb - c.pos) = false → State.drainData d c c.pos (boxSize c.xb - c.pos) s = (u, none) →
      let rest := (u.die d).otherDrains idx c.tile
      Goes (exec (.copyDrainComplete d idx) s) fun t => t.mem = u.mem ∧
        t.die d = { (u.die d).endTok c.bsn c.slot c.tout with tiles := (t.die d).tiles, cmds := (u.die d).cmds.eraseIdx idx } ∧
        (∀ k, k ≠ tn → (t.die d).tile k = (u.die d).tile k) ∧
        let a := (u.die d).tile tn
        let b := (t.die d).tile tn
        (rest = [] → b.st = .ready ∧ (a.owner = c.tout → b.ownv = false)) ∧ (rest ≠ [] → b.st = a.st ∧ b.ownv = a.ownv) ∧
          ∀ o, a.owner = c.tout → rest.getLast? = some o → b.owner = o) ∧
    (∀ pa e, c.detached = false → s.copyWaits d c 0 1 = false → c.pos = 0 → boxSize c.xb = 1 → sends 0 pa e → Goes (exec (.copyDrainComplete d idx) s) fun t =>
      stores t 0 pa ∧ t.die d = { y.endTok c.bsn c.slot c.tout with tiles := (t.die d).tiles, cmds := y.cmds.eraseIdx idx }) ∧
    ∀ pa e, c.pos < boxSize c.xb → s.copyWaits d c c.pos 1 = false → dBulk c.desc = false → sends c.pos pa e → Goes (exec (.fillStart d idx) s) fun t =>
      stores t c.pos pa ∧ t.die d = { y with cmds := y.cmds.set idx { c with pos := c.pos + 1 } }

/-- The cache ways (R251, R242): a write-back stores the dirty bytes of a line at home and leaves it clean; a dirty line is never dropped
and a clean one goes without a store; a CFLUSH, once the accesses before it are performed, writes back every line, drops them all if it
invalidates, and its token is DONE. -/
def Obligations.CacheLineResults : Prop :=
  ∀ (s : State) (d idx pa : Nat),
    let y := s.die d
    let home (l : CLine) : Nat := l.line * 128
    (∀ l ∈ y.cache, Plain s (home l) 128) → y.cpoison = [] → (y.cache.map (·.line)).Nodup →
    let written (t : State) (ls : List CLine) : Prop :=
      (∀ l ∈ ls, ∀ i, i < 128 → l.dirty.getLsbD i = true → t.memByte (home l + i) = l.data.extractLsb' (8 * i) 8) ∧
        ∀ a, (∀ l ∈ ls, ∀ i, i < 128 → l.dirty.getLsbD i = true → a ≠ home l + i) → t.memByte a = s.memByte a
    (∀ l, y.cline pa = some l → Goes (exec (.cacheLineWriteback d pa) s) fun t => t = { s with dies := t.dies, mem := t.mem } ∧
      (∀ e, e ≠ d → t.die e = s.die e) ∧ written t [l] ∧
      t.die d = { y with cache := y.cache.map fun k => if k.line = l.line then { k with dirty := 0 } else k }) ∧
    (∀ l, y.cline pa = some l → (l.dirty ≠ 0 → exec (.cacheLineDrop d pa) s = .next s) ∧
      (l.dirty = 0 → Goes (exec (.cacheLineDrop d pa) s) fun t => OnlyDieAt s t d ∧
        t.die d = { y with cache := y.cache.filter fun k => k.line ≠ l.line, cpoison := [] })) ∧
    ∀ c inv, y.cmds[idx]? = some c → c.kind = .flush inv → y.accDone c.limit = true → Goes (exec (.cflushComplete d idx) s) fun t =>
      t = { s with dies := t.dies, mem := t.mem } ∧ (∀ e, e ≠ d → t.die e = s.die e) ∧ written t y.cache ∧
      t.die d = { y.endTok c.bsn c.slot c.tout with
                         cmds := y.cmds.eraseIdx idx, cache := if inv then [] else y.cache.map fun k => { k with dirty := 0 } }

/-! ### The Y slot: tokens, fences, bollards, signals, the mailbox -/

/-- TWAIT, FENCE, YIELD, TRAP and MBOX (R256, R327, R329, R334, R335, R337). At the sequencer: TWAIT does nothing, and FENCE.die; a wider
FENCE waits for the accesses of its port, then starts to gather and holds the context; YIELD stops a context that a pre-emption waits for,
and on the purser pair waits for a TRAPPEND, REQPEND or RRPEND bit to rise, or not at all while one is set (R358, log 21); TRAP raises USER_TRAP with its code; MBOX, of a context without a request, posts one, and its XD waits. MBOX.reply, on the purser pair,
delivers to the context that asked, or is kept while a pre-emption stops it or has saved it. At a die: TWAIT and FENCE.die hold its later bundles, a wider FENCE
reports, and the others do nothing. -/
def Obligations.SynchronizationResults : Prop :=
  ∀ (s : State) (tin : Toks) (sc : Scope) (code : BitVec 16) (xd xa xb : Reg),
    (s.cur.side = .seq →
      exec (.twait tin) s = .next s ∧ exec (.fence .die) s = .next s ∧
      exec (.trap code) s = .next (s.takeTrap { cause := 0x0010, ucode := code }) ∧
      (sc ≠ .die → s.portBusy = true → exec (.fence sc) s = .next s.stall) ∧
      (sc ≠ .die → s.portBusy = false → Gathers (.fence sc) s (.fence sc) (s.portsAt sc) fun x => { x with wait := .gather x.bsn }) ∧
      (s.cur.ctx ≠ purser → Goes (exec .yield s) fun t => OnlyCtx s t ∧ t.cx = { s.cx with stopping := s.cx.stopping || s.cx.preempt }) ∧
      (s.cur.ctx = purser → (s.pendings = [] → Goes (exec .yield s) fun t => OnlyCtx s t ∧ t.cx = { s.cx with wait := .rise }) ∧
        (s.pendings ≠ [] → exec .yield s = .next s)) ∧
      (s.cx.spec = none → s.cx.seg.closing = none →
        (s.cx.mbox ≠ none → exec (.mbox xd xa xb) s = .next s.stall) ∧
        (s.cx.mbox = none → Goes (exec (.mbox xd xa xb) s) fun t => OnlyCtx s t ∧
          t.cx = noRepeat { s.cx with mbox := some ((xd, s.cx.bsn), s.x xa, s.x xb), pendX := pendAlso xd s.cx.bsn s.cx.pendX }))) ∧
    (s.cur.side = .seq → s.cur.ctx = purser → ∀ p rd n a b, p = (s.x xa).toNat % 128 → p < s.nparts → (s.ctx p).mbox = some ((rd, n), a, b) →
      (s.ctx p).mboxKept = none →
      Goes (exec (.mboxReply xa xb) s) fun t => t = { s with ctxs := t.ctxs } ∧ (∀ c, c ≠ p → t.ctx c = s.ctx c) ∧
        ((s.ctx p).swapped = true ∨ (s.ctx p).saved = true ∨ (s.ctx p).preempt = true → t.ctx p = { s.ctx p with mboxKept := some (s.x xb) }) ∧
        ((s.ctx p).swapped = false → (s.ctx p).saved = false → (s.ctx p).preempt = false → Delivered s t p rd n (s.x xb) ∧
          t.ctx p = { s.ctx p with mbox := none, sc := (t.ctx p).sc, pendX := (t.ctx p).pendX, bad := (t.ctx p).bad, fcr := (t.ctx p).fcr, seg := (t.ctx p).seg })) ∧
    (s.cur.side = .die →
      Goes (exec (.twait tin) s) (fun t => OnlyDie s t fun z => z = { s.dx with twait := s.dx.twait ++ Toks.named tin }) ∧
      Goes (exec (.fence .die) s) (fun t => OnlyDie s t fun z => z = { s.dx with fence := some s.dx.accSeq }) ∧
      (sc ≠ .die → Reports (.fence sc) s s.dx.accSeq 0 []) ∧
      ∀ i ∈ [Instr.yield, .trap code, .mbox xd xa xb, .mboxReply xa xb], exec i s = .next s)

/-- Bollards (R263 to R266, R309, R328). In a speculative run BACQ and BREL stall. Elsewhere they trap with BOLLARD_UNBOUND where the launch
does not bind the region, and with BOLLARD_STATE for a bollard held or requested, or not held; else BACQ asks and waits, and BREL gives up
the bollard and gathers. The unit grants requests in order: an exclusive one to a bollard that is FREE, a shared one unless it is held
exclusively, and none while a BREL of the same context that precedes it is in progress. A release, after the dies' and the
sequencer's accesses, takes the holder off and adds 1 to RELSEQ. After its last launch the record is written back: FREE with the live
RELSEQ. That a speculative run stalls before the checks is a reading (log 17). -/
def Obligations.BollardResults : Prop :=
  (∀ (s : State) (sh : Bool) (r : BitVec 7),
    let bound := s.cx.bollardOf r.toNat
    s.cur.side = .seq →
    (s.cx.spec ≠ none → exec (.bacq sh r) s = .next s.stall ∧ exec (.brel r) s = .next s.stall) ∧
    (s.cx.spec = none → bound = none →
      exec (.bacq sh r) s = .next (s.takeTrap { cause := 0x000C }) ∧ exec (.brel r) s = .next (s.takeTrap { cause := 0x000C })) ∧
    ∀ a, s.cx.spec = none → bound = some a →
      (a ∈ s.cx.held ∨ (∃ e, (a, e) ∈ s.cx.asked) → exec (.bacq sh r) s = .next (s.takeTrap { cause := 0x000D })) ∧
      (a ∉ s.cx.held → exec (.brel r) s = .next (s.takeTrap { cause := 0x000D })) ∧
      (s.cx.seg.closing = none →
        (a ∈ s.cx.held → Gathers (.brel r) s (.brel r.toNat) [] fun x => noRepeat { x with held := x.held.filter (· != a) }) ∧
        ∀ b, s.bollard? a = some b → a ∉ s.cx.held → (∀ e, (a, e) ∉ s.cx.asked) →
          Goes (exec (.bacq sh r) s) fun t => t = { s with ctxs := t.ctxs, bollards := t.bollards } ∧
            (∀ c, c ≠ s.cur.ctx → t.ctx c = s.ctx c) ∧ t.cx = noRepeat { s.cx with asked := some (a, !sh), wait := .grant a } ∧
            ∀ k, t.bollard? k = if k = a then some { b with reqs := b.reqs ++ [(s.cur.ctx, !sh)] } else s.bollard? k)) ∧
  (∀ (s : State) (sh : Bool) (r : BitVec 7) (c a : Nat), s.cur.side = .die → s.driver s.cur.die = some c →
    Reports (.brel r) s s.dx.accSeq 0 [] ∧
    ((s.ctx c).bollardOf r.toNat = some a →
      let due : Prop := s.granted c a = true ∧ ∀ g ∈ (s.ctx c).gathers, ∀ k, g.kind = .brel k → (s.ctx c).bollardOf k = some a → s.pbsn < g.bsn
      (¬due → Goes (exec (.bacq sh r) s) fun t => OnlyDie s t fun z => z = { s.dx with bacq := some a }) ∧
      (due → s.boundLines c s.cur.die a = [] → exec (.bacq sh r) s = .next s))) ∧
  (∀ (s : State) (a : Nat) (b : Bollard), s.bollard? a = some b →
    (∀ c ex rest, b.reqs = (c, ex) :: rest → (s.ctx c).brelOf a ≠ none → exec (.bollardGrant a) s = .next s) ∧
    (∀ c ex rest, b.reqs = (c, ex) :: rest → b.excl = none → (ex = true → b.shared = []) → (s.ctx c).brelOf a = none →
      Goes (exec (.bollardGrant a) s) fun t =>
        t = { s with ctxs := t.ctxs, bollards := t.bollards, dies := t.dies, mem := t.mem, poison := t.poison, errs := t.errs } ∧
        (∀ k, k ≠ c → t.ctx k = s.ctx k) ∧
        t.ctx c = { s.ctx c with held := (s.ctx c).held ++ [a], asked := none, wait := if (s.ctx c).wait = .grant a then .none else (s.ctx c).wait } ∧
        (∀ k, t.bollard? k = if k = a then
            some { b with excl := if ex then some c else none, shared := if ex then b.shared else b.shared ++ [c], reqs := rest }
          else s.bollard? k) ∧
        ∀ d, (t.die d).regs = (s.die d).regs ∧
          (t.die d).bacq = if d ∈ s.issueSet c ∧ (s.die d).bacq = some a then none else (s.die d).bacq) ∧
    (∀ c g, (s.ctx c).brelOf a = some g → s.reported g = true → (s.ctx c).portDone g.bsn = true →
      Goes (exec (.bollardRelease a c) s) fun t =>
        t = { s with ctxs := t.ctxs, bollards := t.bollards, dies := t.dies, mem := t.mem, poison := t.poison, errs := t.errs } ∧
        (∀ k, k ≠ c → t.ctx k = s.ctx k) ∧ t.ctx c = { s.ctx c with gathers := (s.ctx c).gathers.filter (·.bsn != g.bsn) } ∧
        ∀ k, t.bollard? k = if k = a then
            some { b with excl := if b.excl = some c then none else b.excl, shared := b.shared.filter (· != c), relseq := b.relseq + 1 }
          else s.bollard? k) ∧
    (b.writeback = true → b.binders = 0 → Plain s a 64 → Goes (exec (.bollardWriteback a) s) fun t =>
      t = { s with bollards := t.bollards, mem := t.mem } ∧ Stored s t a 64 b.relseq.toNat ∧
        ∀ k, t.bollard? k = if k = a then none else s.bollard? k))

/-- Signals (R252, R267, R330, R331). At an aligned address that translates, of a context that runs no prediction and has no closed segment:
SIGADD and SIGST gather the reports of the dies, SIGADD's XD waiting; SIGWAIT holds the context and evaluates. Once the reports are in and
the port is done, SIGADD adds XB to the signal and returns the old value, and SIGST stores XB. A wait that holds, as signed 64-bit numbers
compare, ends with the value in XD; one that does not changes nothing. One whose translation an XINV has dropped, and whose address does not
translate any more, translates again at each evaluation: while that fails it goes on waiting, which is the model's choice (log 22). -/
def Obligations.SignalResults : Prop :=
  (∀ (s : State) (k : PCond) (sc : Scope) (xd xa xb : Reg) (pa : Nat) (e : TlbE),
    let ea := (s.x xa).toNat
    let translates (acc : AccK) (bell : Bool) : Prop := s.translate s.cx.tlb (s.ctxXlat s.cur.ctx) acc bell ea = .ok (pa, e)
    (s.cur.side = .seq → ea < 2 ^ 56 → ea % 8 = 0 → s.cx.spec = none → s.cx.seg.closing = none →
      (translates .atomic true → Gathers (.sigadd sc xd xa xb) s (.sigadd sc xd ea pa (s.x xb)) (s.portsAt sc) fun x =>
        noRepeat { x with tlb := tlbAdd s.xinvBusy x.tlb e, pendX := pendAlso xd x.bsn x.pendX }) ∧
      (translates .store true → Gathers (.sigst sc xa xb) s (.sigst sc ea pa (s.x xb)) (s.portsAt sc) fun x =>
        noRepeat { x with tlb := tlbAdd s.xinvBusy x.tlb e }) ∧
      (translates .load true → Goes (exec (.sigwait k sc xd xa xb) s) fun t =>
        t = { s with ctxs := t.ctxs, agenda := s.agenda ++ [.ev (.sigwaitPollTimer s.cur.ctx)] } ∧ (∀ c, c ≠ s.cur.ctx → t.ctx c = s.ctx c) ∧
        t.cx = { s.cx with tlb := tlbAdd s.xinvBusy s.cx.tlb e, pendX := pendAlso xd s.cx.bsn s.cx.pendX, wait := .sig k sc xd ea pa (s.x xb) })) ∧
    (s.cur.side = .die → Reports (.sigadd sc xd xa xb) s s.dx.accSeq 0 [] ∧ Reports (.sigst sc xa xb) s s.dx.accSeq 0 [] ∧
      exec (.sigwait k sc xd xa xb) s = .next s)) ∧
  (∀ (s : State) (c : Nat) (k : PCond) (sc : Scope) (xd : Reg) (va pa : Nat) (v : W64), (s.ctx c).wait = .sig k sc xd va pa v →
    s.evaluates c = true → (s.ctx c).sigClear pa = true → Plain s pa 8 → s.poisonIn pa 8 = false →
    let w := BitVec.ofNat 64 (loaded s pa 8)
    let holds : Bool := match k with
      | .eq => decide (w = v)
      | .ne => decide (w ≠ v)
      | .lt => decide (w.toInt < v.toInt)
      | .ge => decide (v.toInt ≤ w.toInt)
      | .gt => decide (v.toInt < w.toInt)
      | .le => decide (w.toInt ≤ v.toInt)
    (holds = false → exec (.sigwaitPollTimer c) s = .next s) ∧
    (holds = true → Goes (exec (.sigwaitPollTimer c) s) fun t => t = { s with ctxs := t.ctxs } ∧ (∀ j, j ≠ c → t.ctx j = s.ctx j) ∧
      Delivered s t c xd ((s.ctx c).bsn - 1) w ∧
      t.ctx c = { s.ctx c with wait := .none, sc := (t.ctx c).sc, pendX := (t.ctx c).pendX, bad := (t.ctx c).bad, fcr := (t.ctx c).fcr,
                               seg := (t.ctx c).seg })) ∧
  (∀ (s : State) (c : Nat) (k : PCond) (sc : Scope) (xd : Reg) (va : Nat) (v : W64), (s.ctx c).wait = .sigLost k sc xd va v →
    s.evaluates c = true →
    let found := s.translate (s.ctx c).tlb (s.ctxXlat c) .load true va
    (∀ w, found = .error w → exec (.sigwaitPollTimer c) s = .next s) ∧
    ∀ pa e, found = .ok (pa, e) → Goes (exec (.sigwaitPollTimer c) s) fun t =>
      t = { s with ctxs := t.ctxs, agenda := s.agenda ++ [.ev (.sigwaitPollTimer c)] } ∧ (∀ j, j ≠ c → t.ctx j = s.ctx j) ∧
        t.ctx c = { s.ctx c with wait := .sig k sc xd va pa v, tlb := tlbAdd s.xinvBusy (s.ctx c).tlb e }) ∧
  ∀ (s : State) (c : Nat) (g : Gather) (sc : Scope) (xd : Reg) (va pa : Nat) (v : W64), (s.ctx c).swapped = false →
    (s.ctx c).gathers.find? (s.reportDue c) = some g → Plain s pa 8 → s.poisonIn pa 8 = false →
    let done (t : State) : Prop := (t.ctx c).gathers = (s.ctx c).gathers.filter (·.bsn != g.bsn) ∧ (∀ j, j ≠ c → t.ctx j = s.ctx j) ∧
      ∀ d, (t.die d).regs = (s.die d).regs
    (g.kind = .sigadd sc xd va pa v → Goes (exec (.responseReport c) s) fun t => done t ∧
      Delivered s t c xd g.bsn (BitVec.ofNat 64 (loaded s pa 8)) ∧ Stored s t pa 8 (loaded s pa 8 + v.toNat)) ∧
    (g.kind = .sigst sc va pa v → Goes (exec (.responseReport c) s) fun t => done t ∧ (t.ctx c).sc = (s.ctx c).sc ∧ Stored s t pa 8 v.toNat)

/-- SYSRD and SYSWR (R4, R325, R342 to R344): XD takes the register, read before the bundle; a write sets VCTL.RM, a partition's counter 0
to 55 or its event, and a read-only register ignores it. An address outside the map raises SYS_ADDR, and a privileged block PRIVILEGED on
any context but the purser pair; so do ERET, MBOX.reply and RRFILL. A die does nothing. -/
def Obligations.SystemRegisterResults : Prop :=
  ∀ (s : State) (xd xa xb : Reg) (addr : BitVec 12),
    let a := addr.toNat
    let c := s.cur.ctx
    let w := s.x xa
    let rd (v : W64) : Prop := exec (.sysrd xd addr) s = .next (s.setX xd v)
    let both (cause : BitVec 16) : Prop := exec (.sysrd xd addr) s = .next (s.takeTrap { cause := cause }) ∧
      exec (.syswr xa addr) s = .next (s.takeTrap { cause := cause })
    let ignored : Prop := exec (.syswr xa addr) s = .next s
    let outside : Prop := (7 ≤ a ∧ a < 0x100) ∨ (0x178 ≤ a ∧ a < 0x200) ∨ 0x500 ≤ a
    (s.cur.side = .die → exec (.sysrd xd addr) s = .next s ∧ ignored) ∧
    (s.cur.side = .seq →
      (outside → both 0x000F) ∧ (0x200 ≤ a → a < 0x500 → c ≠ purser → both 0x000E) ∧
      (c ≠ purser → ∀ i ∈ [Instr.eretReplay xd xa, .eretSkip xd xa, .mboxReply xa xb, .rrfillRetry xd xa, .rrfillData xd xa xb],
        exec i s = .next (s.takeTrap { cause := 0x000E })) ∧
      (a = 0 → rd (s.cx.rm.setWidth 64) ∧ Goes (exec (.syswr xa addr) s) fun t => OnlyCtx s t ∧ t.cx = { s.cx with rm := w.setWidth 2 }) ∧
      (1 ≤ a → a < 7 → ignored) ∧
      (a = 1 → c ≠ purser → ∃ v : W64, rd v ∧ let r := s.cx.lrec
        v.toNat / 2 ^ 57 = lPart r ∧ v.toNat / 2 ^ 50 % 2 ^ 7 = lGangBase r ∧ v.toNat / 2 ^ 43 % 2 ^ 7 = lDCount r ∧ v.toNat / 2 ^ 40 % 2 ^ 3 = lQCount r ∧
        v.toNat / 2 ^ 36 % 2 ^ 4 = (lQMask r).toNat ∧ v.toNat / 2 ^ 34 % 2 ^ 2 = lGMode r ∧ v.toNat / 2 ^ 28 % 2 ^ 6 = lStream r ∧
        v.getLsbD 27 = lHalf r ∧ v.toNat % 2 ^ 27 = 0) ∧
      (a = 2 → rd (s.cx.bsn.setWidth 64)) ∧ (a = 3 → rd (Config.cyclesAt s.stepNo)) ∧ (a = 4 → rd (Config.timeAt s.stepNo)) ∧
      (a = 5 → rd s.cx.dmasks) ∧ (a = 6 → c ≠ purser → rd ((s.job (lJob s.cx.lrec)).dbva.setWidth 64)) ∧
      (∀ n, a = 0x100 + n → n < 64 → c ≠ purser →
        let p := s.part c
        let timed : Prop := 2 ≤ (p.evsel.getD n 0).toNat ∧ (p.evsel.getD n 0).toNat ≤ 5
        (¬timed → rd (p.ctrs.getD n 0)) ∧
        (56 ≤ n → ignored) ∧
        (n < 56 → Goes (exec (.syswr xa addr) s) fun t => t = { s with parts := t.parts } ∧ (∀ k, k ≠ c → t.part k = s.part k) ∧
          t.part c = { p with ctrs := p.ctrs.set n w })) ∧
      ∀ n, a = 0x140 + n → n < 56 → c ≠ purser →
        rd (((s.part c).evsel.getD n 0).setWidth 64) ∧ (9 < w.toNat → ignored) ∧
        (w.toNat ≤ 9 → Goes (exec (.syswr xa addr) s) fun t => t = { s with parts := t.parts } ∧ (∀ k, k ≠ c → t.part k = s.part k) ∧
          t.part c = { s.part c with ctrs := (t.part c).ctrs, evsel := (s.part c).evsel.set n (w.setWidth 8) }))

/-! ### Faults, resumption, pre-emption -/

/-- Die faults (R352 to R358): the fault flag stops the sequencer; the stop command stops each die; once every die of the issue set has
stopped and delivered, the context freezes with the record of the lowest bundle's fault, then the lowest die's, the trap message is posted,
and unissued packets leave the tree and the queues. The fault reported leaves its die for the record. -/
def Obligations.FaultFreezes : Prop :=
  ∀ (s : State) (c : Nat),
    let x := s.ctx c
    (∀ d ∈ s.issueSet c, (s.die d).fault ≠ none → x.frozen = false → x.swapped = false → x.saved = false →
      Goes (exec (.faultFlagArrival c) s) fun t => t = { s with ctxs := t.ctxs } ∧ (∀ k, k ≠ c → t.ctx k = s.ctx k) ∧
        t.ctx c = { x with stopping := true }) ∧
    (∀ d, s.driver d = some c →
      (x.stopping = true → Goes (exec (.stopArrival d) s) fun t => OnlyDieAt s t d ∧ t.die d = { s.die d with stopped := true }) ∧
      (x.stopping = false → exec (.stopArrival d) s = .next s)) ∧
    ∀ d f, d ∈ s.issueSet c → (s.die d).fault = some f →
      (∀ e ∈ s.issueSet c, ∀ g, (s.die e).fault = some g → f.bsn.toNat < g.bsn.toNat ∨ (f.bsn = g.bsn ∧ d ≤ e)) →
      x.stopping = true → x.frozen = false → x.swapped = false → x.saved = false → x.killed = false → x.spec = none → s.allStopped c = true →
      Goes (exec (.contextFrozen c) s) fun t =>
        let r := (t.ctx c).fcr
        t = { s with ctxs := t.ctxs, dies := t.dies } ∧ (∀ k, k ≠ c → t.ctx k = s.ctx k) ∧
        t.ctx c = { x with wire := [], used := [], credits := [], frozen := true, trappend := true, stopping := x.preempt, fcr := r,
                           recFault := some (d, f) } ∧
        r.dief = true ∧ r.die = s.cdn d ∧ r.slot = f.slot ∧ r.cmask = f.cmask ∧ r.detail = f.walk ∧ r.cause = f.cause ∧ r.f = f.bsn ∧ r.addrF = f.addr ∧
        r.g = x.bsn ∧ r.data = BitVec.ofNat 56 f.data ∧ r.nlane = f.lanes.length ∧ r.flane = f.lanes.headD 0 ∧ r.quad = f.lanes.headD 0 / 1024 ∧
        r.field = f.field ∧ r.scw = f.scw ∧ r.lmask = f.lanes ∧
        ∀ e, t.die e = if e ∈ s.issueSet c then { s.die e with queue := [], permHeld := false, fault := if e = d then none else (s.die e).fault }
          else s.die e

/-- ERET and RRFILL on the purser pair (R338, R339, R355, R360). ERET gives 1 unless the context is frozen, held up by nothing else and
without a machine check; else 0, and the context is FROZEN no more: after a sequencer cause at the same bundle, or with `.skip` behind it;
after a die fault its dies go on, each with what its fault held back, and packets that a die lacks are sent again; with `.skip` the slots
that the record reports are complete: their tokens are DONE and their marks gone. RRFILL gives 3 for no valid entry, 2 for data to no load
and 1 for a failed translation, and waits while a matrix multiply of the access's bundle has still to read the slices; else the access is
performed, the entry is retired, and it gives 0. On an entry whose bytes in the system way hold an error it gives 4 and the entry stays, which
is the model's choice (log 22). Readings: logs 18 and 21. -/
def Obligations.ResumeResults : Prop :=
  ∀ (s : State) (xd xa xb : Reg), s.cur.side = .seq → s.cur.ctx = purser →
    let v := (s.x xa).toNat
    let gives (t : State) (n : Nat) : Prop := t.cx.sc = s.cx.sc.setX xd (BitVec.ofNat 64 n)
    (let p := v % 128
     let x := s.ctx p
     let ready : Prop := p < s.nparts ∧ x.frozen = true ∧ x.swapped = false ∧ x.saved = false ∧ x.stopping = false ∧ x.killed = false ∧
       (x.fcr.cause.toNat < 0x0201 ∨ 0x0207 < x.fcr.cause.toNat)
     (¬ready → exec (.eretReplay xd xa) s = .next (s.setX xd 1) ∧ exec (.eretSkip xd xa) s = .next (s.setX xd 1)) ∧
     (ready → x.fcr.dief = false →
       let thawed (y : Ctx) (t : State) : Prop := gives t 0 ∧ t.agenda = s.agenda ++ [.ev (.sigwaitPollTimer p)] ∧
         (∀ c, c ≠ p → c ≠ purser → t.ctx c = s.ctx c) ∧ t.ctx p = y
       let y := { x with frozen := false, trappend := false, fcr := {}, recFault := none, trapToks := [] }
       Goes (exec (.eretReplay xd xa) s) (fun t => thawed y t ∧ t = { s with ctxs := t.ctxs, agenda := t.agenda }) ∧
         Goes (exec (.eretSkip xd xa) s) fun t => thawed { y with pc := x.pc + 64, bsn := x.bsn + 1 } t ∧
           t = { s with ctxs := t.ctxs, agenda := t.agenda, dies := t.dies, parts := t.parts } ∧
           (∀ d, t.die d = { s.die d with toks := (t.die d).toks, bad := (t.die d).bad } ∧ (d ∉ s.issueSet p → t.die d = s.die d) ∧
             (d ∈ s.issueSet p → ∀ k, (t.die d).pend k = ((s.die d).pend k && !x.trapToks.contains k))) ∧
           (∀ k, t.part k = { s.part k with ctrs := (t.part k).ctrs } ∧ (k ≠ p → t.part k = s.part k)) ∧
           ∀ (n : Nat) w, (s.part p).ctrs[n]? = some w → (t.part p).ctrs[n]? = some (if (s.part p).evsel[n]? = some 1 then w + 1 else w)) ∧
     (ready → x.fcr.dief = true → (∀ b, x.bad.contains (.resend b) = false) →
       let goesOn (t : State) : Prop := gives t 0 ∧ (t.ctx p).frozen = false ∧ (t.ctx p).trappend = false ∧ (t.ctx p).fcr = {} ∧ (t.ctx p).recFault = none ∧ t.mem = s.mem ∧
         ∀ e ∈ s.issueSet p, (t.die e).fault = none ∧ (t.die e).stopped = false
       Goes (exec (.eretReplay xd xa) s) (fun t => goesOn t ∧
         (∀ e ∈ s.issueSet p, ∀ f pk src m, (s.die e).fault = some f → f.redo = .slots pk src m → (t.die e).redo = some (.slots pk src m)) ∧
         (∀ d f, x.recFault = some (d, f) → (s.die d).fault = none →
           (∀ pk src m, f.redo = .slots pk src m → (t.die d).redo = some (.slots pk src m)) ∧ ∀ l, f.redo = .remote l → (t.die d).rq = l ++ (s.die d).rq) ∧
         (x.seg.rewind = none → ∀ pk ∈ x.resend, (∃ e ∈ s.issueSet p, (s.die e).passed pk = false) →
           ∀ e ∈ s.issueSet p, (e, pk) ∈ (t.ctx p).wire)) ∧
       Goes (exec (.eretSkip xd xa) s) (fun t => goesOn t ∧
         ∀ d f, x.recFault = some (d, f) → (s.die d).fault = none →
           (∀ pk src m, f.redo = .slots pk src m → ((s.die d).redo = none → (t.die d).redo = none) ∧
             (∃ b, (t.die d).frontier = some b ∧ pk.bsn.toNat ≤ b.toNat) ∧
             ∀ e ∈ pk.slots, m.getLsbD e.1 = false → ∀ k, toutOf e.2 = some k → (t.die d).pend k = false) ∧
           (∀ l, f.redo = .remote l → l ≠ [] → (t.die d).marks = l.foldl (fun m a => m.erase (a.lane, sliceSet a.dst)) (s.die d).marks) ∧
           ∀ k, f.redo = .cmd k → (s.die d).mutes.contains (k.bsn, k.slot) = false → (t.die d).pend k.tout = false))) ∧
    (let p := v / 2 ^ 12 % 2 ^ 7
     let i := v % 2 ^ 12
     let entry : Option RetryE := if p < s.nparts ∧ i < s.ringSize then Tbl.get? (s.die p).ring i else none
     (entry = none → exec (.rrfillRetry xd xa) s = .next (s.setX xd 3) ∧ exec (.rrfillData xd xa xb) s = .next (s.setX xd 3)) ∧
     (∀ e, entry = some e → (s.die p).mayLand e.acc.bsn (sliceSet e.acc.dst) = false →
       exec (.rrfillRetry xd xa) s = .next s.stall ∧ exec (.rrfillData xd xa xb) s = .next s.stall) ∧
     (∀ e, entry = some e → (s.die p).mayLand e.acc.bsn (sliceSet e.acc.dst) = true → e.bad = true →
       ∀ i ∈ [Instr.rrfillRetry xd xa, .rrfillData xd xa xb], Goes (exec i s) fun t => gives t 4 ∧ t = { s with ctxs := t.ctxs, errs := t.errs } ∧
         ((t.bank (s.vaultBank p)).valid = true)) ∧
     ∀ e, entry = some e → (s.die p).mayLand e.acc.bsn (sliceSet e.acc.dst) = true → e.bad = false → (s.die p).heldLanes = [] →
       let a := e.acc
       let retired (t : State) : Prop := gives t 0 ∧ t = { s with ctxs := t.ctxs, dies := t.dies, mem := t.mem } ∧ (∀ d, d ≠ p → t.die d = s.die d) ∧
         (∀ k, Tbl.get? (t.die p).ring k = if k = i then none else Tbl.get? (s.die p).ring k) ∧
         (t.die p).marks = (s.die p).marks.erase (a.lane, sliceSet a.dst) ∧ (t.die p).regs = { (s.die p).regs with lanes := (t.die p).regs.lanes }
       let lands (t : State) (w : Nat) : Prop := (t.die p).regs.lanes = (s.die p).regs.lanes.modify a.lane fun l =>
         l.apply { putSlices a.dst w with m := (putSlices a.dst w).m &&& a.keep }
       (a.op = .load → Goes (exec (.rrfillData xd xa xb) s) fun t => retired t ∧ lands t (s.x xb).toNat ∧ t.mem = s.mem) ∧
       (a.op ≠ .load → exec (.rrfillData xd xa xb) s = .next (s.setX xd 2)) ∧
       (∀ w, s.translate (s.die p).tlb (s.dieXlat p) a.kind a.isAmo a.va = .error w → exec (.rrfillRetry xd xa) s = .next (s.setX xd 1)) ∧
       ∀ pa te c, s.translate (s.die p).tlb (s.dieXlat p) a.kind a.isAmo a.va = .ok (pa, te) → s.driver p = some c → (s.ctx c).spec = none →
         s.cached p pa a.dev = false → Plain s pa a.size → 0 < a.size → s.poisonIn pa a.size = false →
         (a.op = .load → (s.die p).dirtyIn pa a.size = false → Goes (exec (.rrfillRetry xd xa) s) fun t => retired t ∧ lands t (loaded s pa a.size) ∧ t.mem = s.mem) ∧
         (∀ w, a.op = .store w → Goes (exec (.rrfillRetry xd xa) s) fun t => retired t ∧ Stored s t pa a.size w.toNat) ∧
         ∀ f b k, a.op = .amo f b k → (s.die p).dirtyIn pa a.size = false → Goes (exec (.rrfillRetry xd xa) s) fun t => retired t ∧ lands t (loaded s pa a.size) ∧
           Stored s t pa a.size (amoNew f a.size (loaded s pa a.size) b.toNat k.toNat))

/-- The service block's commands (R356, R358, R365 to R373). A command is ignored while one is in progress, and for a partition that does
not exist. KILL stops a live context; PREEMPT stops the live contexts of its gang; RESTORE brings a saved context back where its partitions are
free: it holds them again, its caches of instructions and translations are empty, its commands are no longer detached, its bollard request is
made again and its kept reply is given; its dies go on unless a die fault or a machine check holds them. A 1 written to TRAPPEND clears a
message. The Landing's own pre-emption, an act from outside (log 22), stops the live contexts of a gang in the same way, whether SVCCMD is busy
or not. XINV drops the matching leaves of every cache, one at a time, and is complete once no cache holds one and no access uses one.
Readings: logs 18 and 21. -/
def Obligations.ServiceCommandResults : Prop :=
  (∀ (s : State) (p : Nat),
    let x := s.ctx p
    (s.cmdBusy ≠ none ∨ s.nparts ≤ p → ∀ i ∈ [Instr.svccmdKill p, .svccmdPreempt p, .svccmdRestore p], exec i s = .next s) ∧
    (s.cmdBusy = none → p < s.nparts →
      (x.spec = none → x.live = true → x.killed = false →
        Goes (exec (.svccmdKill p) s) (fun t => t = { s with ctxs := t.ctxs, cmdBusy := some (1, p) } ∧ (∀ c, c ≠ p → t.ctx c = s.ctx c) ∧
          t.ctx p = { x with killed := true, stopping := true, swapped := false, trappend := false }) ∧
        (x.swapped = false → Goes (exec (.svccmdPreempt p) s) fun t => t = { s with ctxs := t.ctxs, cmdBusy := some (2, p) } ∧
          ∀ c, t.ctx c = if c ∈ s.gangCtxs p ∧ (s.ctx c).live = true ∧ (s.ctx c).killed = false then
            { s.ctx c with preempt := true, stopping := true } else s.ctx c)) ∧
      (x.swapped = false → exec (.svccmdRestore p) s = .next s) ∧
      (s.mayRestore p = false → exec (.svccmdRestore p) s = .next s) ∧
      (x.swapped = true → s.mayRestore p = true → s.gangCtxs p = [p] → (∀ xd h k, x.wait ≠ .coll xd h k) → (∀ b, x.bad.contains (.resend b) = false) →
        Goes (exec (.svccmdRestore p) s) fun t =>
        (t.ctx p).swapped = false ∧ (t.ctx p).icache = [] ∧ (t.ctx p).tlb = [] ∧ (∀ c, c ≠ p → t.ctx c = s.ctx c) ∧ t.mem = s.mem ∧
        (lGMode x.lrec ≠ 0 → ∀ d ∈ s.gangDies p, (t.part d).gang = x.task) ∧
        (∀ d ∈ s.issueSet p, (t.die d).regs = (s.die d).regs ∧ (t.die d).tlb = [] ∧ (∀ k ∈ (t.die d).cmds, k.detached = false) ∧
          (x.frozen = false ∨ (x.fcr.dief = false ∧ x.mcheck = false) → (t.die d).stopped = (s.die d).fault.isSome)) ∧
        (∀ a ex b, x.asked = some (a, ex) → s.bollard? a = some b → t.bollard? a = some { b with reqs := b.reqs ++ [(p, ex)] }) ∧
        (∀ rd n a b v, x.mbox = some ((rd, n), a, b) → x.mboxKept = some v → Delivered s t p rd n v ∧ (t.ctx p).mbox = none) ∧
        (x.mboxKept = none → (t.ctx p).sc = x.sc)))) ∧
  (∀ (s : State) (hi : Bool) (w : W64), Goes (exec (.trappendW1c hi w) s) fun t => t = { s with ctxs := t.ctxs } ∧
    ∀ c, t.ctx c = if c < s.nparts ∧ (c / 64 = if hi then 1 else 0) ∧ w.getLsbD (c % 64) = true then { s.ctx c with trappend := false } else s.ctx c) ∧
  (∀ (s : State) (p : Nat) (r : List Act), s.agenda = .preempt p :: r → p < s.nparts → (s.ctx p).spec = none → (s.ctx p).live = true →
    (s.ctx p).killed = false → (s.ctx p).swapped = false → ∃ t : State, step s = .next (s.endStep t) ∧ t = { s with agenda := r, ctxs := t.ctxs } ∧
      ∀ c, t.ctx c = if c ∈ s.gangCtxs p ∧ (s.ctx c).live = true ∧ (s.ctx c).killed = false then
        { s.ctx c with preempt := true, stopping := true } else s.ctx c) ∧
  ∀ (s : State) (w : W64),
    let hit (e : TlbE) : Bool := e.job.toNat == w.toNat % 2 ^ 16 && (w.getLsbD 63 || w.toNat / 2 ^ 16 % 2 ^ 40 * 2 ^ 16 / 2 ^ pageBits e.lvl == e.vpage)
    (s.xinvBusy ≠ none → exec (.xinv w) s = .next s) ∧
    (s.xinvBusy = none → Goes (exec (.xinv w) s) fun t => t = { s with ctxs := t.ctxs, dies := t.dies, xinvBusy := some w } ∧
      (∀ c, t.ctx c = { s.ctx c with tlb := (s.ctx c).tlb.filter (!hit ·), port := (t.ctx c).port } ∧
        (t.ctx c).port.map (fun a => { a with xv := false }) = (s.ctx c).port.map fun a => { a with xv := false }) ∧
      ∀ d, t.die d = { s.die d with tlb := (s.die d).tlb.filter (!hit ·), gq := (t.die d).gq } ∧
        (t.die d).gq.map (fun a => { a with xv := false }) = (s.die d).gq.map fun a => { a with xv := false }) ∧
    (s.xinvBusy = some w → (∃ e ∈ s.dies, ∃ l ∈ e.2.tlb, hit l = true) ∨ (∃ e ∈ s.ctxs, ∃ l ∈ e.2.tlb, hit l = true) → exec .xinvComplete s = .next s) ∧
    (s.xinvBusy = some w → (∀ e ∈ s.dies, e.2.holdsXinv w = false) → (∀ e ∈ s.ctxs, e.2.holdsXinv w (s.ctxXlat e.1).job = false) →
      Goes (exec .xinvComplete s) fun t => t = { s with ctxs := t.ctxs, xinvBusy := none } ∧
        ∀ c, t.ctx c = { s.ctx c with wait := (t.ctx c).wait } ∧ ((∀ k sc xd va pa v, (s.ctx c).wait ≠ .sig k sc xd va pa v) → t.ctx c = s.ctx c))

/-- Pre-emption, kill and discard (R309, R319, R368 to R371). A context has stopped once its dies have and its port is empty: a pre-empted
one begins its save, its started commands run on detached, its packets that nothing has issued leave, and its bollard request is withdrawn;
a killed one without collectives, bollards or commands is discarded, its task KILLED. When every live context of the gang has been saved
they are SWAPPED, and of a die only slices with bad parity and the marks of bad weight planes changed, which the save repairs. A detached PERM's block is written and its token
is DONE. A discarded speculative run whose accesses and commands have finished leaves its partition IDLE and its Vitrine empty. Readings:
log 18. -/
def Obligations.PreemptionResults : Prop :=
  (∀ (s : State) (c : Nat),
    let x := s.ctx c
    x.stopping = true → x.swapped = false → x.saved = false → x.spec = none → s.allStopped c = true → x.port = [] →
    (x.frozen = true ∨ ∀ d ∈ s.issueSet c, (s.die d).fault = none) →
    (x.killed = false → x.preempt = true → Goes (exec (.contextStopped c) s) fun t =>
      t = { s with ctxs := t.ctxs, dies := t.dies, bollards := t.bollards } ∧ (∀ k, k ≠ c → t.ctx k = s.ctx k) ∧
      t.ctx c = { x with preempt := false, saved := true, wire := [], used := [], credits := [] } ∧
      (∀ d, t.die d = if d ∈ s.issueSet c then
          { s.die d with queue := [], permHeld := false,
                         cmds := (s.die d).cmds.map fun k => if k.started && !k.stays then { k with detached := true } else k }
        else s.die d) ∧
      (x.asked = none → t.bollards = s.bollards) ∧
      ∀ a ex b, x.asked = some (a, ex) → s.bollard? a = some b → t.bollard? a = some { b with reqs := b.reqs.filter (·.1 != c) }) ∧
    (x.killed = true → x.colls = [] → x.held = [] → x.releasing = [] → x.asked = none → (∀ a ∈ s.regr.accs, s.startable a = false) →
      (∀ d ∈ s.issueSet c, (s.die d).cmdsDone = true) →
      Goes (exec (.contextStopped c) s) fun t => (t.ctx c).lst = .drained ∧ (t.ctx c).stopping = false ∧ (t.ctx c).frozen = false ∧ (t.ctx c).wait = .none ∧
        (∀ k, k ≠ c → t.ctx k = s.ctx k) ∧ t.mem = s.mem ∧
        (∀ d ∈ s.issueSet c, (t.die d).queue = [] ∧ (t.die d).flights = [] ∧ (t.die d).mmuls = [] ∧ (t.die d).gq = [] ∧ (t.die d).fault = none) ∧
        let f : BitVec 32 := if x.frozen then BitVec.ofNat 32 (x.fcr.die * 65536 + x.fcr.cause.toNat) else 0
        ∀ id k, x.task = some id → s.task? id = some k → k.status = 0 → t.task? id = some { k with status := 4, fault := f })) ∧
  (∀ (s : State) (c : Nat), (s.ctx c).saved = true → (∀ k ∈ s.gangCtxs c, (s.ctx k).live = true → (s.ctx k).saved = true) →
    Goes (exec (.contextSaveComplete c) s) fun t => t = { s with ctxs := t.ctxs, dies := t.dies, errs := t.errs, cmdBusy := t.cmdBusy } ∧
      (∀ d, t.die d = { s.die d with parity := (t.die d).parity, arrs := (t.die d).arrs,
                                     regs := { (s.die d).regs with lanes := (t.die d).regs.lanes } } ∧
        (t.die d).arrs.map (fun r => { r with badA := false, badS := false }) = (s.die d).arrs.map (fun r => { r with badA := false, badS := false }) ∧
        ((s.die d).parity = [] → (∀ r ∈ (s.die d).arrs, r.badA = false ∧ r.badS = false) → t.die d = s.die d)) ∧
      (∀ k, t.ctx k = if k ∈ s.gangCtxs c ∧ (s.ctx k).saved = true then
          (if (s.ctx k).killed then { s.ctx k with saved := false } else { s.ctx k with saved := false, swapped := true, stopping := false })
        else s.ctx k) ∧
      ((∃ p ∈ s.gangCtxs c, s.cmdBusy = some (2, p)) → t.cmdBusy = none)) ∧
  (∀ (s : State) (d idx : Nat) (k : Cmd) (l : List Byte) (off : Nat), (s.die d).cmds[idx]? = some k → k.detached = true → k.started = true →
    k.kind = .perm (some l) off → Goes (exec (.detachedCopyComplete d idx) s) fun t => OnlyDieAt s t d ∧
      t.die d = { s.die d with vault := (t.die d).vault, vpoison := (t.die d).vpoison, toks := (s.die d).toks.set k.tout.toNat false, cmds := (s.die d).cmds.eraseIdx idx,
                               bad := (s.die d).bad.filter fun u => u ≠ .tok k.tout.toNat } ∧
      ∀ o, (t.die d).padByte o = if off ≤ o ∧ o < off + l.length then l.getD (o - off) 0 else (s.die d).padByte o) ∧
  ∀ (s : State) (c : Nat) (r : Spec), (s.ctx c).spec = some r → r.st = .discarding → s.allStopped c = true → (s.ctx c).port = [] →
    (∀ d ∈ s.issueSet c, (s.die d).cmdsDone = true) → Goes (exec (.specDiscardComplete c) s) fun t => t = { s with ctxs := t.ctxs, dies := t.dies } ∧ (∀ k, k ≠ c → t.ctx k = s.ctx k) ∧
      (t.ctx c).lst = .idle ∧ (t.ctx c).spec = none ∧ (t.ctx c).port = [] ∧ (t.ctx c).sc = (s.ctx c).sc ∧
      ∀ d, (d ∉ s.issueSet c → t.die d = s.die d) ∧
        (d ∈ s.issueSet c → (t.die d).vitrine = [] ∧ (t.die d).queue = [] ∧ (t.die d).flights = [] ∧ (t.die d).regs = (s.die d).regs)

/-! ### Gangs and reports -/

/-- RDV, RED, MASK, FELOG and MSTAT (R145, R191, R340, R341, R397 to R399, R403 to R407). At the sequencer each but MASK starts to gather,
its XD waiting; RDV and RED add 1 to GOC and are gang operations in a multi-stream gang, and RDV holds the context; a MASK that its checks
allow sets DMASKS. At a die RDV reports its accesses, RED its dc register, FELOG and MSTAT the logs and tile status of the quadrants
selected and enabled, which they clear with CLR; MASK sets the masks, or faults with MASK_RANGE. -/
def Obligations.GangResults : Prop :=
  ∀ (s : State) (tag : BitVec 16) (op : YRed) (xd xe : Reg) (dc : BitVec 2) (sel : QSel) (clr : Bool) (a : MaskA),
    let gop (i : Instr) (x : Ctx) : Ctx := { x with goc := x.goc + 1, gops :=
      (if lGMode x.lrec = 2 then x.gops ++ [⟨x.goc, x.bsn, x.pc, i, false⟩] else x.gops) }
    let fits (c : Nat) (x : W64) : Prop := (a.kd = true ∨ ∀ n, n < 64 → x.getLsbD n = true → ∃ d ∈ s.issueSet c, s.cdn d = n) ∧
      (a.kq = true ∨ lHalf (s.ctx c).lrec = false ∨ (a.qm.getLsbD 2 = false ∧ a.qm.getLsbD 3 = false))
    let y := s.dx
    let qs := QSel.quads sel s.dsrc.qmask
    (s.cur.side = .seq →
      (s.portBusy = false → Gathers (.rdv tag) s (.rdv tag) [] fun x => { gop (.rdv tag) x with wait := .gather x.bsn }) ∧
      (s.portBusy = true → exec (.rdv tag) s = .next s.stall) ∧
      (s.cx.seg.closing = none →
        Gathers (.red op xd dc) s (.red op xd) [] (fun x => noRepeat { gop (.red op xd dc) x with pendX := pendAlso xd x.bsn x.pendX }) ∧
        Gathers (.felog sel clr xd xe) s (.felog xd xe) [] (fun x => noRepeat { x with pendX := pendAlso xe x.bsn (pendAlso xd x.bsn x.pendX) }) ∧
        Gathers (.mstat sel clr xd) s (.mstat xd) [] fun x => noRepeat { x with pendX := pendAlso xd x.bsn x.pendX }) ∧
      (fits s.cur.ctx (s.x a.xa) → a.kd = false → Goes (exec (.mask a) s) fun t => OnlyCtx s t ∧ t.cx = { s.cx with dmasks := s.x a.xa }) ∧
      (¬fits s.cur.ctx (s.x a.xa) ∨ a.kd = true → exec (.mask a) s = .next s)) ∧
    ∀ c, s.cur.side = .die → s.driver s.cur.die = some c →
      Reports (.rdv tag) s y.accSeq 0 [] ∧ Reports (.red op xd dc) s 0 (s.dsrc.dcs.getD dc.toNat 0) [] ∧
      (fits c (s.px a.xa) → Goes (exec (.mask a) s) fun t => OnlyDie s t fun z =>
        z = { y with regs := { y.regs with dmask := (if a.kd then y.regs.dmask else s.px a.xa), qmask := if a.kq then y.regs.qmask else a.qm } }) ∧
      (¬fits c (s.px a.xa) → exec (.mask a) s = .next (s.dieFault 0x0301 0 [])) ∧
      (y.delivered s.pbsn = true → ((s.ctx c).gathers.any fun g => g.bsn == s.pbsn && g.dies.contains s.cur.die) = true →
        Goes (exec (.felog sel clr xd xe) s) (fun t => OnlyDie s t fun z =>
          z = { y with felogs := z.felogs, reps := y.reps ++ [⟨s.pbsn, 0, true, 0, 0, qs.map fun q => y.felogs.getD q {}⟩] } ∧
            ∀ (q : Nat) l, y.felogs[q]? = some l → z.felogs[q]? = some (if clr = true ∧ q ∈ qs then {} else l)) ∧
        Goes (exec (.mstat sel clr xd) s) fun t => OnlyDie s t fun z => ∃ w : W64,
          z = { y with arrs := z.arrs, reps := y.reps ++ [⟨s.pbsn, 0, true, w, 0, []⟩] } ∧
            (∀ i, w.getLsbD i = true ↔ ∃ q ∈ qs, (y.arrs.getD q Arr.reset).nanb.getLsbD i = true) ∧
            ∀ (q : Nat) r, y.arrs[q]? = some r → z.arrs[q]? = some (if clr = true ∧ q ∈ qs then { r with nanb := 0 } else r))

/-- A combined report is taken (R256, R340, R341, R397, R403, R404): of the oldest operation whose reports are in, of a context that is not
saved. FENCE and RDV end the wait; RED, of one stream, writes the combination of the enabled dies' terms; FELOG writes the record of the earliest
log, by BSN, slot and kind, with the sticky flags of all; MSTAT the union. A register is written that still waits for the operation's bundle.
After an RDV or a RED the gang has completed its GOC (R402). -/
def Obligations.ReportResults : Prop :=
  ∀ (s : State) (c : Nat) (g : Gather), (s.ctx c).swapped = false → (s.ctx c).gathers.find? (s.reportDue c) = some g → s.gopOf c g.goc = none →
    let x := s.ctx c
    let reps := s.repsOf g
    let terms := (reps.filter (·.enabled)).map (·.term)
    let done (t : State) : Prop := t = { s with ctxs := t.ctxs, dies := t.dies } ∧ (∀ k, k ≠ c → t.ctx k = s.ctx k) ∧
      (t.ctx c).gathers = x.gathers.filter (·.bsn != g.bsn) ∧ ∀ d, t.die d = { s.die d with reps := (t.die d).reps }
    let woken (t : State) : Prop := done t ∧ (t.ctx c).sc = x.sc ∧ (t.ctx c).wait = if x.wait = .gather g.bsn then .none else x.wait
    let writes (xd : Reg) (p : W64 → Prop) : Prop := Goes (exec (.responseReport c) s) fun t => done t ∧ ∃ v, p v ∧ Delivered s t c xd g.bsn v
    (∀ sc, g.kind = .fence sc → Goes (exec (.responseReport c) s) woken) ∧
    (∀ tag, g.kind = .rdv tag → Goes (exec (.responseReport c) s) fun t => done t ∧ ((t.ctx c).wait = if x.wait = .gather g.bsn then .none else x.wait) ∧
      (t.ctx c).gdone = if gocBefore g.goc x.gdone then x.gdone else g.goc + 1) ∧
    (∀ op xd, g.kind = .red op xd → Goes (exec (.responseReport c) s) fun t =>
      (t.ctx c).gdone = if gocBefore g.goc x.gdone then x.gdone else g.goc + 1) ∧
    (∀ op xd, g.kind = .red op xd → writes xd fun v => match op with
      | .or => ∀ i, v.getLsbD i = true ↔ ∃ w ∈ terms, w.getLsbD i = true
      | .and => ∀ i, i < 64 → (v.getLsbD i = true ↔ ∀ w ∈ terms, w.getLsbD i = true)
      | .isum => v = BitVec.ofNat 64 (terms.map BitVec.toNat).sum
      | .fmax => v = BitVec.ofNat 64 (terms.foldl (fun m w => fMax .fp32 m (w.toNat % 2 ^ 32)) 0xFF800000)
      | .fsum => v = BitVec.ofNat 64 ((terms.foldl (fun k w => k.addF (FV.dec .fp32 (w.toNat % 2 ^ 32))) Lacc.zero).round .fp32 (RM.ofBits g.rm)).1) ∧
    (∀ xd, g.kind = .mstat xd → writes xd fun v => ∀ i, v.getLsbD i = true ↔ ∃ r ∈ reps, r.term.getLsbD i = true) ∧
    ∀ xd xe, g.kind = .felog xd xe → Goes (exec (.responseReport c) s) fun t => done t ∧ ∃ l : FeLog,
      let waits (n : Reg) (p : List (Reg × BitVec 48)) : Bool := p.contains (n, g.bsn)
      let s1 := if waits xd x.pendX then x.sc.setX xd l.word0 else x.sc
      ((t.ctx c).sc = if waits xe (x.pendX.erase (xd, g.bsn)) then s1.setX xe (if l.valid then l.word1 else 0) else s1) ∧
      let all := reps.flatMap (·.log)
      (l.valid = true ↔ ∃ k ∈ all, k.valid = true) ∧ (l.sinv = true ↔ ∃ k ∈ all, k.sinv = true) ∧ (l.sovf = true ↔ ∃ k ∈ all, k.sovf = true) ∧
        (l.sdz = true ↔ ∃ k ∈ all, k.sdz = true) ∧ (l.sunf = true ↔ ∃ k ∈ all, k.sunf = true) ∧
        (l.valid = false → l.slot = 0 ∧ l.kind = 0 ∧ l.bsn = 0 ∧ l.addr = 0) ∧
        (l.valid = true → (∃ k ∈ all, k.valid = true ∧ l.slot = k.slot ∧ l.kind = k.kind ∧ l.bsn = k.bsn ∧ l.addr = k.addr) ∧
          ∀ k ∈ all, k.valid = true → l.bsn.toNat < k.bsn.toNat ∨ (l.bsn = k.bsn ∧ (l.slot < k.slot ∨ (l.slot = k.slot ∧ kindRank l.kind ≤ kindRank k.kind))))

/-- PERM (R385, R399, R408 to R412). At the sequencer it adds 1 to GOC. At a die one whose shape does not fit faults with PERM_SHAPE, a
vault one outside its rules with PERM_RANGE, and one without its lockstep waits; in it, a vault PERM's token is PEND. In the lockstep of a
stream every die of the issue set issues its bundle, and the data of the die that the pattern names leave for it, over the slices of
quadrants enabled on both; when they arrive they are written, unless a matrix multiply of the bundle has still to read the slices. Of a vault
PERM each die d holds, once the dies have issued it together, the X[XN] bytes at X[XS] of the scratchpad of s(d), the die that the pattern names
for it, by its words, but for those that would lie past its own scratchpad (log 21), and its token is PEND; when they arrive they stand at
X[XT] of d, no other byte of a scratchpad changes, and the token is DONE. -/
def Obligations.PermResults : Prop :=
  (∀ (s : State) (a : PermA) (v : PermVA),
    let gop (i : Instr) (x : Ctx) : Ctx := noRepeat { x with goc := x.goc + 1, gops :=
      (if lGMode x.lrec = 2 then x.gops ++ [⟨x.goc, x.bsn, x.pc, i, false⟩] else x.gops) }
    let n := (s.dieGang s.cur.die).length
    let size := s.padSize s.cur.die
    let xs := (s.px v.xs).toNat
    let xt := (s.px v.xt).toNat
    let xn := (s.px v.xn).toNat
    let inRange : Prop := xs % 64 = 0 ∧ xt % 64 = 0 ∧ xn % 64 = 0 ∧ 64 ≤ xn ∧ xn ≤ 2 ^ 24 ∧ xs + xn ≤ size ∧ xt + xn ≤ size
    (s.cur.side = .seq → s.cx.seg.closing = none →
      Goes (exec (.perm a) s) (fun t => OnlyCtx s t ∧ t.cx = gop (.perm a) s.cx) ∧
      Goes (exec (.permVault v) s) fun t => OnlyCtx s t ∧ t.cx = gop (.permVault v) s.cx) ∧
    (s.cur.side = .die →
      (permShapeBad a.pat a.gw a.amt n = true → exec (.perm a) s = .next (s.dieFault 0x0302 0 [])) ∧
      (permShapeBad a.pat a.gw a.amt n = false → s.cur.perm = none → exec (.perm a) s = .next s.stall) ∧
      (s.y0.pend v.tout = true → exec (.permVault v) s = .next s.stall) ∧
      (s.y0.pend v.tout = false →
        (permShapeBad v.pat v.gw v.amt n = true → exec (.permVault v) s = .next (s.dieFault 0x0302 0 [])) ∧
        (permShapeBad v.pat v.gw v.amt n = false → ¬inRange → exec (.permVault v) s = .next (s.dieFault 0x0303 0 [])) ∧
        (permShapeBad v.pat v.gw v.amt n = false → inRange → s.cur.perm ≠ none → Goes (exec (.permVault v) s) fun t =>
          OnlyDie s t fun z => z = s.dx.setTok v.tout true)))) ∧
  (∀ (s : State) (c : Nat) (a : PermA) (b : BitVec 48) (pk : Nat → Packet),
    (s.ctx c).gops = [] → s.noIssue (lPart (s.ctx c).lrec) = false → (s.issueSet c).Nodup → s.issueSet c ≠ [] →
    (∀ d ∈ s.issueSet c, let y := s.die d
      s.driver d = some c ∧ y.permHead = some (pk d) ∧ (pk d).bsn = b ∧ (pk d).slots = [(7, .perm a)] ∧ y.frontier = none ∧ y.held = false ∧
        s.noIssue d = false ∧ y.permBusy = false ∧ s.enabled d = true ∧ y.parity = [] ∧ y.bad = [] ∧
        ((s.takeHead d (pk d)).die d).interlocked (y.turned (pk d)) (pk d) (pk d).slots = false ∧
        permShapeBad a.pat a.gw a.amt (s.dieGang d).length = false) →
    Goes (exec (.permLockstep c) s) fun t => t.mem = s.mem ∧ ∀ d ∈ s.issueSet c,
      (t.die d).queue = (s.die d).queue.drop 1 ∧ (t.die d).frontier = some b ∧
      ∃ f, (t.die d).permW = some f ∧ f.bsn = b ∧ f.slot = 7 ∧
        match s.permFrom (s.issueSet c) a.pat a.gw a.amt d with
        | some e => f.lanes = permLanes ((s.die e).turned (pk e)) ((s.die d).turned (pk d)) a
        | none => f.lanes = []) ∧
  (∀ (src dst : DieRegs) (a : PermA) (pos : Nat) (l : Lane), src.lanes[pos]? = some l →
    let ps := src.phys a.ss.toNat (a.nsm1.toNat + 1)
    (permLanes src dst a).getD pos {} =
      if src.on pos = true ∧ dst.on pos = true then putSlices (dst.phys a.ss.toNat (a.nsm1.toNat + 1)) (l.rd ps) else {}) ∧
  (∀ (s : State) (c : Nat) (v : PermVA) (b : BitVec 48) (pk : Nat → Packet),
    let xs (d : Nat) : Nat := ((pk d).getX v.xs).toNat
    let xt (d : Nat) : Nat := ((pk d).getX v.xt).toNat
    let xn (d : Nat) : Nat := ((pk d).getX v.xn).toNat
    (s.ctx c).gops = [] → s.noIssue (lPart (s.ctx c).lrec) = false → (s.issueSet c).Nodup → s.issueSet c ≠ [] →
    (∀ d ∈ s.issueSet c, let y := s.die d
      s.driver d = some c ∧ y.permHead = some (pk d) ∧ (pk d).bsn = b ∧ (pk d).slots = [(7, .permVault v)] ∧ y.frontier = none ∧ y.held = false ∧
        s.noIssue d = false ∧ y.permBusy = false ∧ s.enabled d = true ∧ y.parity = [] ∧ y.bad = [] ∧ y.vpoison = [] ∧ y.toks.length = 64 ∧
        y.pend v.tout = false ∧ ((s.takeHead d (pk d)).die d).interlocked (y.turned (pk d)) (pk d) (pk d).slots = false ∧
        permShapeBad v.pat v.gw v.amt (s.dieGang d).length = false ∧ xs d % 64 = 0 ∧ xt d % 64 = 0 ∧ xn d % 64 = 0 ∧ 64 ≤ xn d ∧ xn d ≤ 2 ^ 24 ∧
        xs d + xn d ≤ s.padSize d ∧ xt d + xn d ≤ s.padSize d) →
    Goes (exec (.permLockstep c) s) fun t => t.mem = s.mem ∧ ∀ d ∈ s.issueSet c,
      (t.die d).queue = (s.die d).queue.drop 1 ∧ (t.die d).frontier = some b ∧ (t.die d).pend v.tout = true ∧
      (∀ o, (t.die d).padByte o = (s.die d).padByte o) ∧
      ∃ k, (t.die d).cmds = (s.die d).cmds ++ [k] ∧ k.bsn = b ∧ k.tout = v.tout ∧ k.detached = false ∧
        match s.permFrom (s.issueSet c) v.pat v.gw v.amt d with
        | some e => ∃ l : List Byte, k.kind = .perm (some l) (xt d) ∧ l.length = min (xn e) (s.padSize d - xt d) ∧
            ∀ i, i < l.length → l.getD i 0 = (s.die e).padByte (xs e + i)
        | none => k.kind = .perm none (xt d)) ∧
  (∀ (s : State) (c : Nat), (∀ d ∈ s.gangDies c, (s.die d).permW = none) → (s.gangDies c).Nodup →
    Goes (exec (.permDataWrite c) s) fun t => t = { s with dies := t.dies } ∧ (∀ d, d ∉ s.gangDies c → t.die d = s.die d) ∧
    ∀ d ∈ s.gangDies c, ∀ (i : Nat) (k : Cmd) (data : Option (List Byte)) (off : Nat), (s.die d).cmds[i]? = some k →
      k.kind = .perm data off → k.detached = false → (∀ (j : Nat) (u : Cmd), j < i → (s.die d).cmds[j]? = some u → u.isPerm = false) →
      t.die d = { s.die d with vault := (t.die d).vault, vpoison := (t.die d).vpoison, toks := (s.die d).toks.set k.tout.toNat false,
                               cmds := (s.die d).cmds.eraseIdx i, bad := (s.die d).bad.filter fun u => u ≠ .tok k.tout.toNat } ∧
      ∀ o, (t.die d).padByte o = match data with
        | some l => if off ≤ o ∧ o < off + l.length then l.getD (o - off) 0 else (s.die d).padByte o
        | none => (s.die d).padByte o) ∧
  (∀ (s : State) (c : Nat), (∃ d ∈ s.gangDies c, (s.die d).permLands = false) → exec (.permDataWrite c) s = .next s) ∧
  ∀ (s : State) (c : Nat), (∀ d ∈ s.gangDies c, (s.die d).permLands = true ∧ (s.die d).cmds.any Cmd.isPerm = false) →
    Goes (exec (.permDataWrite c) s) fun t => t = { s with dies := t.dies } ∧ (∀ d, d ∉ s.gangDies c → t.die d = s.die d) ∧
    ∀ d ∈ s.gangDies c, (t.die d).permW = none ∧ ∀ f, (s.die d).permW = some f → ∀ (pos : Nat) (l : Lane) (w : LaneW),
      (s.die d).regs.lanes[pos]? = some l → f.lanes[pos]? = some w → (t.die d).regs.lanes[pos]? = some (l.apply w)

/-! ### Collectives and the Registrar -/

/-- COLL, CWAIT and CCANCEL, and a collective's course (R419, R420, R423 to R426, R428, R429). A COLL whose checks pass takes the next
number of its member, gathers the dies' reports and gives its handle; at a die its token is PEND, or complete at issue where the COLL was not
issued (R71). CWAIT gives the code of a completed
collective once the stores that the ports have counted are acknowledged, 0x4 for a handle that names none, and else waits; `.test` gives 0x5
instead, and waits for no port. CCANCEL gives 0x2 for no collective, 0x0 for one
that was cancelled, 0x1 for one that has completed, and else asks. Once released it requests an accession, in the order of arrival at its
Registrar, and keeps the dies that issued it enabled; the accession is live once every other module's ranks have started too. Then its data
move an element at a time (R260): of the sources, and, when all are known, of the destinations; what is left moves as it completes: 0x0, or 0x2
for a mismatch, or 0x3 for a fault. What moves when is log 5's; messages of other modules: log 11. -/
def Obligations.CollectiveResults : Prop :=
  (∀ (s : State) (xd xa : Reg) (tout : Tok) (tin : Toks) (slma : BitVec 12),
    let x := s.cx
    let r := s.collDesc slma
    let job := lJob x.lrec
    let st := s.collStatus job (lPart x.lrec) false r
    let h := s.x xa
    let named (k : CollRec) : Prop := h.toNat % 2 ^ 16 = 0 ∧ k.gid = h.toNat / 2 ^ 48 ∧ k.seq = h.toNat / 2 ^ 16 % 2 ^ 32
    (s.cur.side = .seq → s.slmSize < slma.toNat * 64 + 64 → exec (.coll xd tout tin slma) s = .next (s.takeTrap { cause := 0x0006 })) ∧
    (s.cur.side = .seq → x.spec = none →
      (slma.toNat * 64 + 64 ≤ s.slmSize → x.seg.closing = none → x.colls.length < 64 →
        (st ≠ 0 → exec (.coll xd tout tin slma) s = .next (s.setX xd (BitVec.ofNat 64 (cGid r % 2 ^ 16 * 2 ^ 48 + st % 2 ^ 8)))) ∧
        (st = 0 → ∀ g, s.group? job (cGid r) = some g → Goes (exec (.coll xd tout tin slma) s) fun t =>
          let n := Tbl.get 0 g.counts (lPart x.lrec)
          t.cx.sc = x.sc.setX xd (BitVec.ofNat 64 (cGid r % 2 ^ 16 * 2 ^ 48 + n % 2 ^ 32 * 2 ^ 16)) ∧ t.mem = s.mem ∧ t.dies = s.dies ∧
          t.cx.gathers = x.gathers ++ [⟨x.bsn, .coll, s.reporters, x.rm, x.goc, s.unacked⟩] ∧
          t.cx.colls = x.colls ++ [⟨cGid r, n, r, tout, x.bsn, s.reporters, s.collDst job r, .waitTok, 0, [], 0⟩] ∧
          ∃ g', t.group? job (cGid r) = some g' ∧ g' = { g with counts := g'.counts } ∧ Tbl.get 0 g'.counts (lPart x.lrec) = (n + 1) % 2 ^ 32)) ∧
      ((∀ k ∈ x.colls, ¬named k) → x.expired = [] → exec (.cwait xd xa) s = .next (s.setX xd 4) ∧ exec (.cwaitTest xd xa) s = .next (s.setX xd 4) ∧
        (x.seg.closing = none → Goes (exec (.ccancel xd xa) s) fun t => OnlyCtx s t ∧ t.cx = noRepeat { x with sc := x.sc.setX xd 2 })) ∧
      ∀ k, x.colls = [k] → named k →
        (∀ code, k.st = .done code → ((∀ e ∈ s.unacked, e.2.2 = 0) → exec (.cwait xd xa) s = .next (s.setX xd (BitVec.ofNat 64 code))) ∧
          exec (.cwaitTest xd xa) s = .next (s.setX xd (BitVec.ofNat 64 code)) ∧
          (x.seg.closing = none → Goes (exec (.ccancel xd xa) s) fun t => OnlyCtx s t ∧
            t.cx = noRepeat { x with sc := x.sc.setX xd (if code = 1 then 0 else 1) })) ∧
        (k.isDone = false ∨ (∃ e ∈ s.unacked, e.2.2 ≠ 0) → Goes (exec (.cwait xd xa) s) fun t => OnlyCtx s t ∧
          t.cx = { x with wait := .coll xd h s.unacked, pendX := pendAlso xd x.bsn x.pendX }) ∧
        (k.isDone = false →
          exec (.cwaitTest xd xa) s = .next (s.setX xd 5) ∧
          (x.seg.closing = none → Goes (exec (.ccancel xd xa) s) fun t => OnlyCtx s t ∧
            t.cx = noRepeat { x with cancels := x.cancels ++ [⟨xd, x.bsn, k.gid, k.seq⟩], pendX := pendAlso xd x.bsn x.pendX }))) ∧
    ∀ c, s.cur.side = .die → s.driver s.cur.die = some c →
      exec (.cwait xd xa) s = .next s ∧ exec (.cwaitTest xd xa) s = .next s ∧ exec (.ccancel xd xa) s = .next s ∧
      (s.y0.pend tout = false → (∀ k ∈ Toks.named tin, s.y0.pend k = false) →
        ((s.ctx c).gathers.any fun g => g.bsn == s.pbsn && g.dies.contains s.cur.die) = true →
        (∃ k ∈ (s.ctx c).colls, k.bsn = s.pbsn ∧ k.st = .waitTok) →
        Goes (exec (.coll xd tout tin slma) s) fun t => OnlyDie s t fun z =>
          z = { s.dx.setTok tout true with reps := s.dx.reps ++ [⟨s.pbsn, s.dx.accSeq, true, 0, 0, []⟩] }) ∧
      (s.y0.pend tout = false → (∀ k ∈ Toks.named tin, s.y0.pend k = false) → (∀ k ∈ (s.ctx c).colls, k.bsn = s.pbsn → k.st ≠ .waitTok) →
        Goes (exec (.coll xd tout tin slma) s) fun t => OnlyDie s t fun z => z = s.dx.setTok tout false)) ∧
  (∀ (s : State) (c idx : Nat) (r : CollRec) (g : Gather), c < 256 → (s.ctx c).colls[idx]? = some r → r.st = .waitTok → s.regr.accs = [] →
    ((s.ctx c).gathers.find? fun g => g.bsn == r.bsn && g.kind == .coll) = some g → s.reported g = true → (s.ctx c).portDone g.bsn = true →
    Goes (exec (.accessionRequest c idx) s) fun t => t = { s with ctxs := t.ctxs, dies := t.dies, regr := t.regr } ∧
      (t.ctx c).colls = (s.ctx c).colls.set idx
        { r with st := .requested, dies := g.dies.filter fun d => (s.die d).reps.any fun k => k.bsn == g.bsn && k.enabled } ∧ (t.ctx c).sc = (s.ctx c).sc ∧
      let job := (lJob (s.ctx c).lrec).toNat
      t.regr = { s.regr with
        accs := [{ Accn.new job r.gid r.seq with requested := [lPart (s.ctx c).lrec] }]
        asks := if s.servesKey job r.gid = true ∧ (job, r.gid, r.seq) ∉ s.regr.asks then s.regr.asks ++ [(job, r.gid, r.seq)] else s.regr.asks }) ∧
  (∀ (s : State) (a : Accn) (g : Group) (remote : List (Nat × BitVec 512)) (ep : BitVec 16), s.regr.accs = [a] →
    s.group? (BitVec.ofNat 16 a.job) a.gid = some g → (a.st = .live → a.mirrored = false) → (∃ e ∈ g.members.zipIdx, e.1.1 ≠ s.mid.toNat ∧ e.2 ∉ remote.map Prod.fst) →
    exec (.accessionLive a.job a.gid a.seq ⟨remote, ep⟩) s = .next s) ∧
  (∀ (s : State) (a : Accn) (g : Group) (remote : List (Nat × BitVec 512)) (ep : BitVec 16), s.regr.accs = [a] →
    s.group? (BitVec.ofNat 16 a.job) a.gid = some g → s.localGroup g = true → a.st = .granted → a.started ≠ [] → a.mirrored = true →
    let keys := (s.recsOf (BitVec.ofNat 16 a.job) a.gid a.seq).map fun e => collKey e.2.2.2.desc
    Goes (exec (.accessionLive a.job a.gid a.seq ⟨remote, ep⟩) s) fun t => t = { s with regr := t.regr } ∧
      ∃ b, t.regr = { s.regr with accs := [b] } ∧ b = { a with st := .live, mismatch := b.mismatch } ∧
        (remote = [] → (b.mismatch = false ↔ ∀ k ∈ keys, ∀ j ∈ keys, k = j))) ∧
  (∀ (s : State) (c idx : Nat) (r : CollRec) (a : Accn) (g : Group) (m : LiveMsg), c < 256 →
    let e := (c, idx, lPart (s.ctx c).lrec, r)
    s.recsOf (lJob (s.ctx c).lrec) r.gid r.seq = [e] → (s.ctx c).colls[idx]? = some r → r.isDone = false → s.regr.accs = [a] →
    a.job = (lJob (s.ctx c).lrec).toNat → a.gid = r.gid → a.seq = r.seq → s.group? (lJob (s.ctx c).lrec) r.gid = some g → a.st = .live →
    a.mirrored = true → a.mismatch = false → a.fault = false →
    let moves (u : State) (k : CollRec) : Prop := Goes (exec (.accessionLive a.job a.gid a.seq m) s) fun t =>
      t = { u with ctxs := t.ctxs } ∧ (∀ j, j ≠ c → t.ctx j = u.ctx j) ∧ t.ctx c = { u.ctx c with colls := (u.ctx c).colls.set idx k }
    (∀ u l, s.srcLeft g e ≠ 0 → s.srcRd e (min (cElem r.desc) (s.srcLeft g e)) = (u, .ok l) → moves u { r with got := r.got ++ l }) ∧
      ∀ u, s.srcLeft g e = 0 → r.pos < r.dst.2 → srcsKnown r.desc g.members.length ((s.collRank g e, r.got) :: a.srcs) = true →
        s.moveData c r g ((s.collRank g e, r.got) :: a.srcs) (cElem r.desc) = (u, true) → moves u { r with pos := r.pos + cElem r.desc }) ∧
  ∀ (s : State) (c idx : Nat) (r : CollRec) (a : Accn) (g : Group) (remote : List (Nat × List Byte)) (fault : Bool) (others : List Nat), c < 256 →
    s.recsOf (lJob (s.ctx c).lrec) r.gid r.seq = [(c, idx, lPart (s.ctx c).lrec, r)] → (∀ d ∈ r.dies, (r.bsn, 7) ∉ (s.die d).mutes) →
    (s.ctx c).colls[idx]? = some r → r.isDone = false → s.regr.accs = [a] → a.job = (lJob (s.ctx c).lrec).toNat → a.gid = r.gid → a.seq = r.seq →
    s.group? (lJob (s.ctx c).lrec) r.gid = some g → a.st = .live → a.mirrored = true → a.started ≠ [] → (s.ctx c).wait = .none →
    let ends (u : State) (code : Nat) : Prop := Goes (exec (.collectiveComplete ⟨a.job, a.gid, a.seq⟩ remote fault others) s) fun t =>
      t.mem = u.mem ∧
      (t.ctx c).colls = (s.ctx c).colls.set idx { r with st := .done code, order := s.stepNo } ∧
      ∀ d, (t.die d).toks = if d ∈ r.dies then (u.die d).toks.set r.tout.toNat false else (u.die d).toks
    let news := remote.filter fun e => !a.srcs.any fun k => k.1 == e.1
    let heard : Accn :=
      { a with srcs := a.srcs ++ news, fault := a.fault || fault, elsewhere := a.elsewhere ++ others.filter fun q => !a.elsewhere.contains q }
    let failed : Prop := a.fault = true ∨ fault = true
    let keeps : Prop := Goes (exec (.collectiveComplete ⟨a.job, a.gid, a.seq⟩ remote fault others) s) fun t => t = { s with regr := t.regr } ∧
      ∃ b, t.regr = { s.regr with accs := [b] } ∧ b = { heard with st := b.st }
    (news ≠ [] → ¬failed → keeps) ∧
      (news = [] ∨ failed →
        (a.mismatch = true → ends s 2) ∧ (a.mismatch = false → failed → ends s 3) ∧
        (a.mismatch = false → ¬failed → ∀ v srcs bad,
          { s with regr := { s.regr with accs := [heard] } }.readSrcs g [(c, idx, lPart (s.ctx c).lrec, r)] = (v, srcs, bad) →
          let known := srcsKnown r.desc g.members.length (srcs ++ heard.srcs)
          (bad = true → ends v 3) ∧ (bad = false → known = false → keeps) ∧
            (bad = false → known = true → ∀ u ok, v.moveData c r g (srcs ++ heard.srcs) r.dst.2 = (u, ok) → ends u (if ok then 0 else 3))))

/-- What a collective delivers (R421, R422): to rank r, elements of b bits of the sources: all-reduce and reduce-scatter the combination
over the ranks, of the whole and of block r; all-gather every source in rank order; broadcast the root's; all-to-all block r of every
source. Integers wrap, and ORDERED sums go round by round between neighbours in FP32. The data move an element at a time (log 5). -/
def Obligations.CollectiveData : Prop :=
  (∀ (d : BitVec 512) (ty : ETy) (srcs : List Nat) (r i : Nat), i < cCount d →
    let n := cCount d
    let out := collOut d ty srcs r
    let at' (v k : Nat) : Nat := v / 2 ^ (ty.bits * k) % 2 ^ ty.bits
    let red (k : Nat) : Nat := collReduce ty (cRop d) (cExact d) (srcs.map fun v => at' v k)
    (cOp d = 0 → out[i]? = some (red i)) ∧ (cOp d = 2 → out[i]? = some (red (r * n + i))) ∧
      (cOp d = 3 → out[i]? = some (at' (srcs.getD (cRoot d) 0) i)) ∧
      ∀ q v, srcs[q]? = some v → (cOp d = 1 → out[q * n + i]? = some (at' v i)) ∧ (cOp d = 4 → out[q * n + i]? = some (at' v (r * n + i)))) ∧
  (∀ (ty : ETy) (exact : Bool) (v : List Nat), ty.isF = false → (∀ x ∈ v, x < 2 ^ ty.bits) → v ≠ [] →
    collReduce ty 0 exact v = v.sum % 2 ^ ty.bits ∧
    collReduce ty 1 exact v ∈ v ∧ (∀ x ∈ v, tval ty x ≤ tval ty (collReduce ty 1 exact v)) ∧
    collReduce ty 2 exact v ∈ v ∧ ∀ x ∈ v, tval ty (collReduce ty 2 exact v) ≤ tval ty x) ∧
  (∀ (ty : ETy) (v : List Nat), ty.isF = true →
    collReduce ty 0 true v = ((v.foldl (fun a x => a.addF (FV.dec (fmtOf ty) x)) Lacc.zero).round (fmtOf ty) .rne).1) ∧
  ∀ a b c d : Nat,
    let add (x y : Nat) : Nat := (fAdd .fp32 .rne x y).1
    let wide (x : Nat) : Nat := (fToF .fp32 .fp32 .rne false x).1
    collReduce .fp32 0 false [a, b] = wide (add (wide a) (wide b)) ∧
      collReduce .fp32 0 false [a, b, c] = wide (add (add (wide a) (wide b)) (wide c)) ∧
      collReduce .fp32 0 false [a, b, c, d] = wide (add (add (wide a) (wide b)) (add (wide c) (wide d)))

/-- The Registrar (R418, R426 to R431). A new key of a module-local group takes NEXT, within its window; the grant reaches the module, which
starts its part once every member has issued. A cancel decides a key that is not live: CANCELLED, and the waiting CCANCEL gets 0x0; of a
live one it gets 0x1. The backup's acknowledgement lets mirrored decisions stand. Without a heartbeat the backup takes over, or, where there
is none, the pod's collectives stop; a newer epoch makes its sender the primary, and a grant, a decision or an announcement of an older one is
discarded. An old primary undoes what it has decided and its backup not acknowledged. A grant without a member on a module holds no later one
of its stream back there. Cimus creates groups and designates the primary and the backup. What other modules do is theirs (log 11); that epochs compare
modulo 2^16 is the model's reading (log 21). -/
def Obligations.RegistrarResults : Prop :=
  (∀ (s : State) (a : Accn) (g : Group), s.regr.accs = [a] → s.group? (BitVec.ofNat 16 a.job) a.gid = some g → s.localGroup g = true →
    s.regr.asks = [] →
    (a.st = .unassigned → a.requested ≠ [] → Goes (exec (.accessionAssign a.job a.gid a.seq) s) fun t =>
      t = { s with regr := { s.regr with localNext := s.regr.localNext + 1,
                                         accs := [{ a with num := s.regr.localNext, st := .granted, mirrored := true }] } }) ∧
    (a.st = .granted → a.mirrored = true → a.arrived = false → a.started = [] → s.hereRanks g ≠ [] →
      let here := (s.hereRanks g).map (·.2)
      Goes (exec (.grantArrival a.job a.gid a.seq ⟨a.num.toNat, s.regr.epoch⟩) s) fun t =>
        t = { s with regr := { s.regr with accs := [{ a with arrived := true, started := if here.all a.requested.contains then here else [] }] } }) ∧
    ((s.ctxs.map (·.1)).Nodup →
      let answered (t : State) (v : W64) : Prop := ∀ c q, (s.ctx c).cancels = [q] → q.gid = a.gid → q.seq = a.seq → (lJob (s.ctx c).lrec).toNat = a.job →
        Delivered s t c q.xd q.bsn v ∧ (t.ctx c).cancels = []
      (∃ e ∈ s.hereRanks g, e.2 ∉ a.completed) → ∀ verdict ep,
      (a.st = .granted → a.arrived = false → a.started = [] → Goes (exec (.cancelDecision ⟨a.job, a.gid, a.seq⟩ verdict ep) s) fun t =>
        t = { s with ctxs := t.ctxs, regr := { s.regr with accs := [{ a with st := .cancelled, wasCancelled := true, mirrored := true }] } } ∧ answered t 0) ∧
      (a.st = .live → a.mirrored = true → a.wasCancelled = false → a.started ≠ [] → Goes (exec (.cancelDecision ⟨a.job, a.gid, a.seq⟩ verdict ep) s) fun t =>
        t = { s with ctxs := t.ctxs } ∧ answered t 1))) ∧
  (∀ (s : State) (job gid seq n : Nat) (verdict : Option Nat) (g : Group) (ep : BitVec 16), s.group? (BitVec.ofNat 16 job) gid = some g →
    s.servesKey job gid = false → ep ≠ s.regr.epoch → (s.regr.epoch - ep).toNat < 2 ^ 15 →
    exec (.grantArrival job gid seq ⟨n, ep⟩) s = .next s ∧ exec (.cancelDecision ⟨job, gid, seq⟩ verdict ep) s = .next s) ∧
  (∀ (s : State) (a : Accn), s.regr.accs = [a] → s.regr.unacked = [(a.job, a.gid, a.seq)] → a.st = .granted →
    exec (.backupAck 1) s = .next { s with regr := { s.regr with unacked := [], accs := [{ a with mirrored := true }] } }) ∧
  ∀ (s : State) (epoch : BitVec 16) (pr mid job gid : Nat) (ms : List (Nat × Nat)),
    exec .registrarHeartbeat s = .next s ∧
    (s.nobackup = true → exec .registrarFailover s = .next { s with collstop := true }) ∧
    (s.nobackup = false → s.regr.backup = some s.mid.toNat → s.regr.accs = [] → exec .registrarFailover s =
      .next { s with nobackup := true, regr := { s.regr with primary := true, epoch := s.regr.epoch + 1, backup := none, unacked := [] } }) ∧
    ((s.regr.epoch - epoch).toNat < 2 ^ 15 → exec (.epochAnnounce epoch) s = .next s) ∧
    (2 ^ 15 ≤ (s.regr.epoch - epoch).toNat →
      (s.regr.unacked = [] → exec (.epochAnnounce epoch) s =
        .next { s with nobackup := true, regr := { s.regr with epoch := epoch, primary := false, backup := none } }) ∧
      exec (.epochAnnounce epoch) s = .next { s with
        nobackup := true
        regr := { s.regr with
          epoch := epoch
          primary := false
          backup := none
          unacked := []
          accs := s.regr.accs.map fun a =>
            let n := s.regr.unacked.count (a.job, a.gid, a.seq)
            if n = 0 ∨ a.st = .retired then a
            else if a.st = .granted ∨ n ≠ 1 then { a with st := .unassigned, num := 0, wasCancelled := false, mirrored := false }
            else { a with st := .granted, wasCancelled := false, mismatch := false, mirrored := true } } }) ∧
    (∀ a b : Accn, s.regr.accs = [a, b] → a.arrived = true → s.herePartsOf a = [] → b.arrived = true → b.started = [] → s.herePartsOf b ≠ [] →
      s.allIssued b = true → s.startable b = true ∧ s.startable a = false) ∧
    exec (.backupRegistrarDesignate ⟨pr, mid⟩) s =
      .next { s with regr := { s.regr with primary := pr == s.mid.toNat, backup := some mid }, nobackup := false } ∧
    let ok : Prop := gid < 65536 ∧ ms ≠ [] ∧ ms.length ≤ 4096 ∧ ms.Nodup ∧ s.group? (BitVec.ofNat 16 job) gid = none
    (ok → exec (.groupCreate job gid ms) s = .next { s with groups := s.groups ++ [⟨job, gid, ms, []⟩] }) ∧
      (¬ok → exec (.groupCreate job gid ms) s = .next s)

/-! ### Reliability -/

/-- Segments and errors (R375, R380, R381, R383 to R387, R390 to R393). A commit makes the next segment the current one and each die takes
its checkpoint; a faulted die that has finished restores the registers of its checkpoint, predicates and logs in the quadrants that were
enabled; when every one has, the replay begins. Consumption of an error in live-in state, in an unrepeatable segment, or for the fourth time
is a machine check with its code; else the context goes back to the entry of the segment that the bundle lies in. A context that has machine
checked or been killed only records it. A retransmission is a corrected error, and its sixteenth failure on a tree a machine check. An error
that strikes changes no value. A bank keeps its record against a lesser error and counts to 0xFFFF; ERBCLR clears it. Readings: log 19. -/
def Obligations.ReliabilityResults : Prop :=
  (∀ (s : State) (c : Nat) (b : BitVec 48) (ad : VA),
    let x := s.ctx c
    let g := x.seg
    g.closing = some (b, ad) → s.commits c = true → Goes (exec (.segmentCommit c) s) fun t => t = { s with ctxs := t.ctxs, dies := t.dies } ∧
      (∀ k, k ≠ c → t.ctx k = s.ctx k) ∧
      t.ctx c = { x with seg := { g with ckpt := g.next, entry := b + 1, closing := none, next := none, unrep := g.unrepNext, unrepNext := false,
                                         consumed := g.consumedNext, consumedNext := 0, mismatches := g.mismatchesNext, mismatchesNext := 0,
                                         rewind := none } } ∧
      ∀ d, t.die d = if d ∈ s.issueSet c then { s.die d with commitWait := false, commitOff := false, ckpt := some (s.die d).checkpoint } else s.die d) ∧
  (∀ (s : State) (c : Nat), s.commits c = false → exec (.segmentCommit c) s = .next s) ∧
  (∀ (s : State) (d c : Nat) (r : Rewind) (k : DieCkpt), s.driver d = some c → (s.ctx c).seg.rewind = some r → (s.die d).ckpt = some k →
    d ∈ r.faulted → d ∉ r.restored → (s.ctx c).swapped = false → (s.ctx c).saved = false → (s.ctx c).mcheck = false →
    (s.die d).finished (s.ctx c).seg.entry = true → Goes (exec (.faultedDieRestore d) s) fun t =>
      let y := s.die d
      let z := t.die d
      t = { s with ctxs := t.ctxs, dies := t.dies } ∧ (∀ e, e ≠ d → t.die e = s.die e) ∧ (∀ e, e ≠ c → t.ctx e = s.ctx e) ∧
      (t.ctx c).seg.rewind = some { r with restored := d :: r.restored } ∧ (t.ctx c).sc = (s.ctx c).sc ∧
      z.regs = { z.regs with prb := k.prb, views := k.views, dcs := k.dcs, dmask := k.dmask, qmask := k.qmask } ∧
      (∀ (q : Nat) l, y.felogs[q]? = some l → z.felogs[q]? = some (if k.quads.getLsbD q then k.felogs.getD q l else l)) ∧
      (∀ (pos : Nat) (l : Lane) p, y.regs.lanes[pos]? = some l → k.prs[pos]? = some p →
        z.regs.lanes[pos]? = some (if k.quads.getLsbD (pos / 1024) then { l with pr := p } else l)) ∧
      (∀ n : Nat, k.toks[n]? = some false → z.toks[n]? = some false) ∧
      z.fault = none ∧ z.stopped = false ∧ z.vault = y.vault ∧ (y.fault = none → z.tiles = y.tiles) ∧ z.arrs = y.arrs) ∧
  (∀ (s : State) (c : Nat) (r : Rewind), (s.ctx c).seg.rewind = some r → (∀ d ∈ r.faulted, d ∈ r.restored) →
    Goes (exec (.replayResend c) s) fun t => t = { s with ctxs := t.ctxs } ∧ (∀ k, k ≠ c → t.ctx k = s.ctx k) ∧
      t.ctx c = { s.ctx c with seg := { (s.ctx c).seg with rewind := some { r with replaying := true } } }) ∧
  (∀ (s : State) (c bank : Nat) (fs : List Nat) (e : ErrIn) (bsn : BitVec 48) (livein : Bool), (s.ctx c).spec = none →
    let t := s.consume c fs bank e bsn livein
    let checked (code : BitVec 16) : Prop := (t.ctx c).frozen = true ∧ (t.ctx c).fcr.cause = code ∧ (t.ctx c).fcr.data = BitVec.ofNat 56 bank ∧
      (t.ctx c).sc = (s.ctx c).sc ∧ t.mem = s.mem ∧ (t.bank bank).valid = true
    let g := (s.ctx c).seg
    let ended : Prop := (s.ctx c).mcheck = true ∨ (s.ctx c).killed = true
    let late : Prop := ∃ b ad, g.closing = some (b, ad) ∧ b.toNat < bsn.toNat
    let back (k : SeqCkpt) : Prop := (t.ctx c).sc = k.sc ∧ (late ∨ (t.ctx c).stopping = (s.ctx c).preempt) ∧ (t.ctx c).pc = k.pc ∧ (t.ctx c).bsn = k.bsn ∧ (t.ctx c).loops = k.loops ∧
      (t.ctx c).rm = k.rm ∧ (t.ctx c).slm = (s.ctx c).slm ∧ t.mem = s.mem
    (ended → t = { s with errs := t.errs }) ∧ (¬ended →
      (livein = true → checked 0x0202) ∧
      (livein = false → ¬late → (g.unrep = true → checked 0x0203) ∧ (g.unrep = false → 3 ≤ g.consumed → checked 0x0205) ∧
        ∀ k, g.unrep = false → g.consumed < 3 → g.ckpt = some k → back k ∧ (t.ctx c).seg.consumed = g.consumed + 1) ∧
      (livein = false → late → (g.unrepNext = true → checked 0x0203) ∧ (g.unrepNext = false → 3 ≤ g.consumedNext → checked 0x0205) ∧
        ∀ k, g.unrepNext = false → g.consumedNext < 3 → g.next = some k → back k ∧ (t.ctx c).seg.consumedNext = g.consumedNext + 1))) ∧
  (∀ (s : State) (c n bank : Nat), bankListed bank = true →
    let tree : Prop := 128 ≤ bank ∧ bank < 640 ∧ bank % 8 = 6
    (n < 16 ∨ ¬tree → Goes (exec (.linkRetransmit c n bank) s) fun t => t = { s with errs := t.errs } ∧ (t.bank bank).valid = true ∧
      ∀ k, k ≠ bank → t.bank k = s.bank k) ∧
    (16 ≤ n → tree → (s.ctx c).busy = false ∨ (s.ctx c).mcheck = true ∨ (s.ctx c).killed = true →
      Goes (exec (.linkRetransmit c n bank) s) fun t => t = { s with errs := t.errs } ∧ (t.bank bank).valid = true) ∧
    (16 ≤ n → tree → (s.ctx c).spec = none → (s.ctx c).busy = true → (s.ctx c).mcheck = false → (s.ctx c).killed = false → Goes (exec (.linkRetransmit c n bank) s) fun t => (t.ctx c).frozen = true ∧ (t.ctx c).fcr.cause = 0x0207 ∧
      (t.ctx c).sc = (s.ctx c).sc ∧ ∀ k, k ≠ c → t.ctx k = s.ctx k)) ∧
  (∀ (s : State) (k : BitVec 4) (w : W64) (e : ErrAt), Goes (exec (.storedError e k w) s) fun t => t.mem = s.mem ∧
    (∀ c, (t.ctx c).sc = (s.ctx c).sc ∧ (t.ctx c).slm = (s.ctx c).slm) ∧
    (∀ d, (t.die d).regs = (s.die d).regs ∧ (t.die d).vault = (s.die d).vault ∧ (t.die d).cache = (s.die d).cache) ∧
    (∀ pa, e = .mem pa → s.isMem pa = true → pa / 64 ∈ t.poison) ∧
    (∀ d o, e = .vault d o → o < s.padSize d → ∀ i, i < 16 → o / 16 * 16 + i ∈ (t.die d).vpoison) ∧
    (∀ d i r, e = .ring d i → (i, r) ∈ (s.die d).ring → (i, { r with bad := true }) ∈ (t.die d).ring) ∧
    (∀ d lane sl, e = .slice d lane sl → lane < (s.die d).regs.lanes.length → sl < 512 → (lane, sl) ∈ (t.die d).parity) ∧
    (∀ d pa, e = .cache d pa → ((s.die d).cline pa).isSome = true → (t.die d).cbad pa = true) ∧
    (∀ d q r, e = .plane d q → (s.die d).arrs[q]? = some r → (t.die d).arrs[q]? = some { r with badA := true }) ∧
    (∀ d q r, e = .shadow d q → (s.die d).arrs[q]? = some r → (t.die d).arrs[q]? = some { r with badS := true }) ∧
    (∀ d u, e = .unit d u → unitOk s.nlanes u = true → u ∈ (t.die d).bad) ∧
    (∀ d lane g, e = .spill d lane g → lane < s.nlanes → g < 128 → (lane, g) ∈ (t.die d).sbad) ∧
    (∀ d l, e = .vit d l → (∃ v ∈ (s.die d).vitrine, v.line = l) → l ∈ (t.die d).vbad) ∧
    (∀ c u, e = .seq c u → s.seqUnitOk c u = true → u ∈ (t.ctx c).bad) ∧
    (∀ c, e = .lockstep c → s.unprot = false ∨ c = purser → (t.ctx c).mismatch = true) ∧
    ∀ b a, e = .corrected b a → bankListed b = true → (t.bank b).valid = true) ∧
  (∀ (s : State) (w : W64) (d b : Nat), exec (.verticalBusRepair d b) s = .next s ∧
    (w.getLsbD 0 = false → exec (.erbclr w) s = .next s) ∧
    (w.getLsbD 0 = true → Goes (exec (.erbclr w) s) fun t => t = { s with errs := t.errs } ∧
      ∀ k, t.bank k = if k = s.erbsel.toNat then {} else s.bank k)) ∧
  ∀ (b : ErrBank) (e : ErrIn),
    let r := b.arrive e
    let taken : Prop := r.valid = true ∧ r.uc = e.uc ∧ r.mc = e.mc ∧ r.kind = e.kind ∧ r.w1 = e.w1 ∧ r.w2 = e.w2 ∧ r.w3 = e.w3 ∧ r.ovf = b.ovf ∧
      r.partv = e.part.isSome ∧ r.part = BitVec.ofNat 7 (e.part.getD 0)
    r.count.toNat = min 0xFFFF (b.count.toNat + 1) ∧ (b.valid = false → taken) ∧ (b.valid = true → b.uc = false → e.uc = true → taken) ∧
      (b.valid = true → b.uc = e.uc → r = { b with ovf := true, count := r.count }) ∧
      (b.valid = true → b.uc = true → e.uc = false → r = { b with count := r.count })

/-! ### Queues and packets -/

/-- Queues (R272 to R274, R277, R281, R289, R294 to R297, R332, R333). A doorbell of a mapped queue raises WR, or aborts on an overrun; one
of an unmapped queue maps it, with RD from RDPTR and a new phase; before BOOTED, or from the secure world without IDE, it has no effect. An
idle berth is freed. Packets are fetched ahead in execution order, across the passes of a LOOP, and not beyond an INDIRECT whose buffer comes
first. A dispatch decision runs the packet of a ready berth; a ready berth passed over 4,096 times rises a class. ENQ writes its packet at WR, raises WR and gives it, or gives FULL or DENIED.
A record is written at PROD with its pass bit, and interrupts follow CNT and TMO. Readings: log 17. -/
def Obligations.QueueResults : Prop :=
  (∀ (s : State) (via : HostAcc) (q : Nat) (v : W64), (s.boot ≠ .booted ∨ via = .secBare ∨ 262144 ≤ q → exec (.doorbell ⟨via, q⟩ v) s = .next s) ∧
    (s.boot = .booted → via ≠ .secBare → q < 262144 →
      (∀ n b, s.berthOf q = some n → s.berth? n = some b →
        (v.toNat ≤ b.rd + 2 ^ b.log2n → Goes (exec (.doorbell ⟨via, q⟩ v) s) fun t => t = { s with berths := t.berths, bells := s.bells + 1 } ∧
          ∀ k, t.berth? k = if k = n then some { b with last := s.bells, wr := max b.wr v.toNat } else s.berth? k) ∧
        (b.wr < v.toNat → b.rd + 2 ^ b.log2n < v.toNat → Goes (exec (.doorbell ⟨via, q⟩ v) s) fun t => t.berth? n = none)) ∧
      (∀ rd,
        let r := (s.qdesc q).1
        s.berths = [] → s.waitQ = [] → qOk r = true → qState r = 0 → s.landRd (qJob r) (qRdptr r) 8 = .ok rd → rd < v.toNat → v.toNat ≤ rd + 2 ^ qLog2n r →
        Goes (exec (.doorbell ⟨via, q⟩ v) s) fun t => t.mem = s.mem ∧ t.waitQ = [] ∧ ∃ b, t.berths = [(0, b)] ∧ b.queue = q ∧ b.ring = qRing r ∧
          b.job = qJob r ∧ b.rd = rd ∧ b.wr = v.toNat ∧ b.hist = [] ∧
          (s.phases = [] → b.phase = s.nextTask ∧ t.phases = [(s.nextTask, ⟨q, qJob r, false, 0, false⟩)])))) ∧
  (∀ (s : State) (n : Nat) (b : Berth), s.berth? n = some b →
    (∀ pa, s.berthIdle b = true → (∀ e ∈ s.ctxs, e.2.spec = none) → s.translateCold (s.jobXlat b.job) .store b.rdptr = .ok pa → Plain s pa 8 →
      Goes (exec (.berthIdleTimeout n) s) fun t => t = { s with berths := t.berths, mem := t.mem, agenda := s.agenda ++ [.ev .queueMapWaiting] } ∧
        (∀ k, t.berth? k = if k = n then none else s.berth? k) ∧ Stored s t pa 8 b.rd) ∧
    (s.berthIdle b = false → exec (.berthIdleTimeout n) s = .next s) ∧
    (∀ f w i, b.frames = [f] → f.win.length < 16 →
      let plain (l : List BundleBits) : Prop := ∀ x ∈ l, pf x 7 0 ≠ 7 ∧ pf x 7 0 ≠ 8
      ((f.loop = none ∧ plain f.win ∧ i = f.pos + f.win.length) ∨
        (∃ a len left, f.loop = some (a, len, left) ∧ plain f.win ∧ a ≤ f.pos ∧ f.pos ≤ a + len ∧ 0 < len ∧ 0 < left ∧
          i = if f.pos - a + f.win.length < len * left then a + (f.pos - a + f.win.length) % len
            else a + len + (f.pos - a + f.win.length - len * left)) ∨
        (∃ v r, f.loop = none ∧ f.win = v :: r ∧ pf v 7 0 = 8 ∧ pf v 511 496 ≠ 0 ∧ pf v 495 488 ≠ 0 ∧ plain r ∧
          r.length < pf v 495 488 * pf v 511 496 ∧ i = f.pos + 1 + r.length % pf v 495 488)) →
      i < (match f.buf with | none => b.wr | some (_, k) => k) → s.landRd b.job (b.addrOf f i) 64 = .ok w →
      Goes (exec (.packetFetch n) s) fun t => t = { s with berths := t.berths } ∧
        ∀ k, t.berth? k = if k = n then some { b with frames := [{ f with win := f.win ++ [BitVec.ofNat 512 w] }] } else s.berth? k) ∧
    (∀ f l v, b.frames = [f] → f.win = l ++ [v] → pf v 7 0 = 7 → pf v 455 440 ≠ 0 →
      Goes (exec (.packetFetch n) s) fun t => t = { s with berths := t.berths } ∧ ∀ k, t.berth? k = s.berth? k) ∧
    (4096 ≤ b.passed → b.curCls ≠ 0 → s.ready n b = true → Goes (exec (.berthClassPromote n) s) fun t => t = { s with berths := t.berths } ∧
      ∀ k, t.berth? k = if k = n then some { b with curCls := b.curCls - 1, passed := 0 } else s.berth? k)) ∧
  (∀ (s : State) (w : WaitQ) (rd : Nat),
    let r := (s.qdesc w.queue).1
    s.waitQ = [w] → s.berths = [] → qOk r = true → qState r = 0 → s.landRd (qJob r) (qRdptr r) 8 = .ok rd → w.value ≤ rd + 2 ^ qLog2n r →
    Goes (exec .queueMapWaiting s) fun t => t.mem = s.mem ∧ t.waitQ = [] ∧ ∃ b, t.berths = [(0, b)] ∧ b.queue = w.queue ∧ b.rd = rd ∧ b.wr = max rd w.value) ∧
  (∀ (s : State) (n : Nat) (b : Berth) (w : BundleBits) (i : Instr), s.berths = [(n, b)] → (∀ e ∈ s.ctxs, e.2.spec = none) → s.ready n b = true →
    b.curCls < 4 → s.nextPacket b = some (.ok w) → decodePacket w = some i →
    exec .dispatchDecision s = exec i { s with rr := s.rr.set b.curCls (n + 1), cur := { s.cur with berth := n, queue := b.queue } }) ∧
  (∀ (s : State), (∃ t, exec .dispatchDecision s = .next t) ∧
    ((∀ e ∈ s.ctxs, e.2.spec = none) → (∀ e ∈ s.berths, s.ready e.1 e.2 = false ∨ 4 ≤ e.2.curCls) → exec .dispatchDecision s = .next s) ∧
    ∀ n b f w h pr,
      let u : State := { s with rr := s.rr.set b.curCls (n + 1), cur := { s.cur with berth := n, queue := b.queue } }
      Dispatching u b f h pr → f.pos < b.wr → f.win = w :: f.win.tail → decodePacket w = some (.nop h) → b.curCls < 4 →
      Goes (exec .dispatchDecision s) fun t => Moved u t b [{ f with pos := f.pos + 1, win := f.win.tail }] pr ∧ t.tasks = [] ∧ t.ctxs = s.ctxs ∧
        t.dies = s.dies ∧ t.rr = u.rr) ∧
  (∀ (s : State) (xd xa : Reg) (slma : BitVec 12), s.cur.side = .seq → s.cx.spec = none → s.cx.seg.closing = none → s.portBusy = false →
    slma.toNat * 64 + 64 ≤ s.slmSize →
    let q := (s.x xa).toNat
    let gives (t : State) (v : Nat) : Prop := t.cx = noRepeat { s.cx with sc := s.cx.sc.setX xd (BitVec.ofNat 64 v) }
    (262144 ≤ q → Goes (exec (.enq xd xa slma) s) fun t => OnlyCtx s t ∧ gives t 2) ∧
    ∀ n b, q < 262144 → s.berthOf q = some n → s.berth? n = some b →
      (b.job ≠ lJob s.cx.lrec → Goes (exec (.enq xd xa slma) s) fun t => OnlyCtx s t ∧ gives t 2) ∧
      (b.job = lJob s.cx.lrec → b.wr = b.rd + 2 ^ b.log2n → Goes (exec (.enq xd xa slma) s) fun t => OnlyCtx s t ∧ gives t 1) ∧
      ∀ pa, b.job = lJob s.cx.lrec → b.wr < b.rd + 2 ^ b.log2n →
        s.translateCold (s.jobXlat b.job) .store (b.ring + 64 * (b.wr % 2 ^ b.log2n)) = .ok pa → Plain s pa 64 →
        Goes (exec (.enq xd xa slma) s) fun t => gives t (b.wr * 256) ∧ Stored s t pa 64 (s.enqPacket slma) ∧
          (∀ k, k ≠ s.cur.ctx → t.ctx k = s.ctx k) ∧
          ∀ k, t.berth? k = if k = n then some { b with last := s.bells, wr := b.wr + 1 } else s.berth? k) ∧
  ∀ (s : State) (p : Nat) (j : BitVec 16) (blk : Nat), s.ringBlock p = .ok (j, blk) →
    let cnt := blk / 2 ^ 179 % 2 ^ 16
    let tmo := blk / 2 ^ 163 % 2 ^ 16
    let raised (t : State) : Prop := t = { s with parts := t.parts } ∧ (∀ k, k ≠ p → t.part k = s.part k) ∧
      t.part p = { s.part p with msix := (s.part p).msix + 1, irqs := 0 }
    (max 1 cnt ≤ (s.part p).irqs → Goes (exec (.eventRingIrqCount p) s) raised) ∧
    ((s.part p).irqs < max 1 cnt → exec (.eventRingIrqCount p) s = .next s) ∧
    (tmo ≠ 0 → 0 < (s.part p).irqs → Goes (exec (.eventRingIrqTimeout p) s) raised) ∧
    ∀ r l pa pb,
      let n := 2 ^ (blk / 2 ^ 195 % 32)
      let prod := blk / 2 ^ 64 % 2 ^ 64
      let va := blk / 2 ^ 200 + 32 * (prod % n)
      (s.part p).heldRecs = r :: l → r.task = none → r.irq = false → s.phalt = false → (prod + 2 ^ 64 - blk % 2 ^ 64) % 2 ^ 64 < n →
      s.translateCold (s.jobXlat j) .store va = .ok pa → Plain s pa 32 → s.poisonIn pa 32 = false →
      (s.memWr pa 32 (r.rec0.toNat + (prod / n + 1) % 2)).translateCold (s.jobXlat j) .store ((s.part p).evring.toNat + 8) = .ok pb → Plain s pb 8 →
      (pa + 32 ≤ pb ∨ pb + 8 ≤ pa) →
      Goes (exec (.eventRingSpace p) s) fun t => t.part p = { s.part p with heldRecs := l } ∧
        (∀ k, k < 32 → t.memByte (pa + k) = BitVec.ofNat 8 ((r.rec0.toNat + (prod / n + 1) % 2) / 256 ^ k)) ∧
        (∀ k, k < 8 → t.memByte (pb + k) = BitVec.ofNat 8 ((prod + 1) / 256 ^ k)) ∧
        ∀ a, (a < pa ∨ pa + 32 ≤ a) → (a < pb ∨ pb + 8 ≤ a) → t.memByte a = s.memByte a

/-- Packets that act at their dispatch (R275, R278 to R286, R288 to R290), of a berth that runs in its ring with no task outstanding. NOP
and CANCEL end at once; EVENT's record joins those that wait; SIGNAL and TIMESTAMP write their word first; INDIRECT opens a buffer; LOOP a
range, or skips it with no pass; PRED goes on, or skips its range; FETCHFENCE drops what was fetched; BARRIER waits and evaluates its
signals; PHASE opens a new phase, and its job learns the status of the old one. A SIGNAL waits while stores that it counts are not
acknowledged. A CANCEL with KILL stops the contexts of a running launch; one of the whole job leaves its queue without a packet. Readings:
logs 17 and 21. -/
def Obligations.PacketResults : Prop :=
  (∀ (s : State) (b : Berth) (f : Frame) (h : PHdr) (pr : Nat), Dispatching s b f h pr →
    let skip (n : Nat) : Frame := { f with pos := f.pos + n, win := f.win.drop n }
    let ends (i : Instr) (n : Nat) : Prop := Goes (exec i s) fun t => Moved s t b [skip n] pr ∧ t.tasks = [] ∧ t.ctxs = s.ctxs ∧ t.dies = s.dies
    let writes (i : Instr) (pa v : Nat) : Prop := Goes (exec i s) fun t => (∃ x, t.berths = [(s.cur.berth, x)] ∧ x.frames = [skip 1] ∧ x.queue = b.queue ∧
      x.wr = b.wr) ∧ t.tasks = [] ∧ t.ctxs = s.ctxs ∧ t.dies = s.dies ∧ (∀ k, k < 8 → t.memByte (pa + k) = BitVec.ofNat 8 (v / 256 ^ k)) ∧
      ∀ a, (a < pa ∨ pa + 8 ≤ a) → (a < pr ∨ pr + 8 ≤ a) → t.memByte a = s.memByte a
    ends (.nop h) 1 ∧ (∀ tag lvl kill, lvl ≠ .job → ends (.cancel h tag lvl kill) 1) ∧
    (∀ tag kill, s.waitQ = [] → f.pos + 1 = b.wr → Goes (exec (.cancel h tag .job kill) s) fun t =>
      Moved s t b [{ buf := none, pos := b.wr, loop := none, win := [] }] pr ∧ t.tasks = [] ∧ t.ctxs = s.ctxs ∧ t.dies = s.dies ∧
      (t.job b.job).status = if (s.job b.job).status = 0 then 2 else (s.job b.job).status) ∧
    (∀ v, (s.part b.home).heldRecs ≠ [] → Goes (exec (.event h v) s) fun t => Moved s t b [skip 1] pr ∧ t.ctxs = s.ctxs ∧ ∃ k r,
      t.tasks = [(s.nextTask, k)] ∧ k.st = .ended ∧ (t.part b.home).heldRecs = (s.part b.home).heldRecs ++ [⟨r, h.irq, some s.nextTask⟩] ∧
      bf r 191 128 = v.toNat ∧ bf r 127 96 = h.tag.toNat ∧ bf r 47 40 = 0 ∧ bf r 39 36 = 5) ∧
    (∀ sa store v pa, acked (s.portsFor h.scope) = true → TwoWords s b pr (if store then .store else .atomic) sa.toNat pa →
      writes (.signal h sa store v) pa (if store then v.toNat else loaded s pa 8 + v.toNat)) ∧
    (∀ sa store v, acked (s.portsFor h.scope) = false → Goes (exec (.signal h sa store v) s) fun t => Moved s t b [skip 1] pr ∧ t.ctxs = s.ctxs ∧ ∃ k,
      t.tasks = [(s.nextTask, k)] ∧ k.kind = .signal sa.toNat store v ∧ k.st = .running ∧ k.ports = some (s.portsFor h.scope)) ∧
    (∀ ta pa, TwoWords s b pr .store ta.toNat pa → writes (.timestamp h ta) pa (Config.timeAt s.stepNo).toNat) ∧
    (∀ ia (n : BitVec 16), n ≠ 0 → Goes (exec (.indirect h ia n) s) fun t =>
      Moved s t b [{ buf := some (ia.toNat, n.toNat), pos := 0, loop := none, win := [] }, skip 1] pr ∧ t.tasks = []) ∧
    (∀ ia, Goes (exec (.indirect h ia 0) s) fun t => Moved s t b [skip 1] pr) ∧
    (∀ (passes : BitVec 16) (n : BitVec 8), s.rangeSt b n.toNat = .good →
      (passes = 0 → Goes (exec (.loopPacket h passes n) s) fun t => Moved s t b [skip (1 + n.toNat)] pr) ∧
      (passes ≠ 0 → Goes (exec (.loopPacket h passes n) s) fun t =>
        Moved s t b [{ skip 1 with loop := some (f.pos + 1, n.toNat, passes.toNat) }] pr)) ∧
    (∀ (p : PredP) w, s.rangeSt b p.count.toNat = .good → s.landRd b.job p.addr.toNat 8 = .ok w →
      Goes (exec (.pred h p) s) fun t => Moved s t b [skip (if PCond.holds p.cnd (BitVec.ofNat 64 w) p.val then 1 else 1 + p.count.toNat)] pr) ∧
    Goes (exec (.fetchfence h) s) (fun t => Moved s t b [{ skip 1 with win := [] }] pr ∧ t.tasks = []) ∧
    (∀ p, p.v = 0 → ends (.barrier h p) 1) ∧
    (∀ p, p.v ≠ 0 → ∃ u x k, u.berths = [(s.cur.berth, x)] ∧ x.frames = [skip 1] ∧ x.barrier = some s.nextTask ∧ u.tasks = [(s.nextTask, k)] ∧
      k.kind = .barrier p ∧ k.st = .running ∧ k.berth = s.cur.berth ∧ k.hdr = h ∧ (∀ a, (a < pr ∨ pr + 8 ≤ a) → u.memByte a = s.memByte a) ∧ exec (.barrier h p) s = exec (.barrierPollTimer s.cur.berth) u) ∧
    (b.phase ≤ s.nextTask → Goes (exec (.phase h) s) fun t => Moved s t b [skip 1] pr ∧ t.tasks = [] ∧
      (∃ x, t.berths = [(s.cur.berth, x)] ∧ x.phase = s.nextTask + 1 ∧ Tbl.get? t.phases (s.nextTask + 1) = some ⟨b.queue, b.job, false, 0, false⟩) ∧
      ∀ ph, b.phase ≠ 0 → Tbl.get? s.phases b.phase = some ph → (t.job b.job).home = some b.home ∧
        (t.job b.job).status = if (s.job b.job).status = 0 then ph.status else (s.job b.job).status)) ∧
  (∀ (s : State) (n id : Nat) (b : Berth) (k : Task) (p : BarrierP) (vs : List (BarSig × W64)), s.berths = [(n, b)] → s.tasks = [(id, k)] →
    b.barrier = some id → k.berth = n → k.kind = .barrier p → k.st = .running → k.cancelled = false → s.barVals k.job (BarrierP.used p) = .ok vs → k.hdr.csig = 0 →
    k.hdr.crec = false → (∀ e ∈ s.ctxs, e.2.spec = none) →
    ((∃ e ∈ vs, e.2.msb = true) → Goes (exec (.barrierPollTimer n) s) fun t => t.berths = []) ∧
    ((∀ e ∈ vs, e.2.msb = false) →
      ((∀ e ∈ vs, PCond.holds e.1.cnd e.2 e.1.val = true) → Goes (exec (.barrierPollTimer n) s) fun t => t.tasks = [] ∧
        ∃ x, t.berths = [(n, x)] ∧ x.barrier = none ∧ x.frames = b.frames) ∧
      ((∃ e ∈ vs, PCond.holds e.1.cnd e.2 e.1.val = false) → exec (.barrierPollTimer n) s = .next s))) ∧
  ∀ (s : State) (b : Berth) (h : PHdr) (id : Nat) (k : Task) (l : LaunchP) (tag : BitVec 32), s.berths = [(s.cur.berth, b)] → b.barrier = none → h.ord = false →
    s.tasks = [(id, k)] → id ≠ s.nextTask → k.kind = .launch l → k.st = .running → s.launchDone k = false → k.parent = none → k.job = b.job → k.hdr.tag = tag →
    Goes (exec (.cancel h tag .launch true) s) fun t => t.task? id = some { k with cancelled := true } ∧
      ∀ c ∈ k.ctxs, (t.ctx c).killed = true ∧ (t.ctx c).stopping = true ∧ (t.ctx c).sc = (s.ctx c).sc

/-- Work (R31, R263, R268, R277, R287, R288, R291 to R293, R298, R302 to R304). A LAUNCH on a free partition enters it: the context and its
die have the state of launch entry. A GANG reserves its partitions, one after the other, and rolls back after 2 µs. A COPY joins the engine
of its die, and moves its bytes 64 at a time; one that met poison ends with FAULT; the DST of one that runs is a multiple of 64. A GRAPH's
nodes are admitted, and a ready NOP node ends. A launch drains, and then completes: its context is IDLE. A prediction's run enters its
partition once no packet can be dispatched. Readings: logs 17 and 21. -/
def Obligations.WorkResults : Prop :=
  (∀ (s : State) (b : Berth) (f : Frame) (h : PHdr) (pr : Nat), Dispatching s b f h pr →
    let skip : List Frame := [{ f with pos := f.pos + 1, win := f.win.drop 1 }]
    let id := s.nextTask
    let moved (t : State) : Prop := ∃ x, t.berths = [(s.cur.berth, x)] ∧ x.frames = skip
    (∀ l p, s.kindBad (.launch l) = false → s.prepare b.job (.launch l) = .ok p → s.partFree l.part.toNat none = true → (∀ e ∈ p.regs, e.getLsbD 49 = false) →
      p.args.length = 256 → p.consts.length ≤ 64 →
      let n := l.part.toNat
      Goes (exec (.launch h l) s) fun t => moved t ∧ Entered (t.ctx n) p n ∧ (t.ctx n).task = some id ∧ FreshDie (t.die n) p ∧
        (t.die n).regs.qmask = (if l.qmask ≠ 0 then l.qmask else if s.unprot then 3 else 15) ∧ (∀ c, c ≠ n → t.ctx c = s.ctx c) ∧
        ∃ k, t.task? id = some k ∧ k.st = .running ∧ k.ctxs = [n]) ∧
    (∀ g p, s.kindBad (.gang g) = false → s.prepare b.job (.gang g) = .ok p → 2 ≤ (bitsOf g.pmask).length → s.phalt = false →
      Goes (exec (.gang h g) s) fun t => moved t ∧ t.ctxs = s.ctxs ∧ Tbl.get? t.resvns id = some ⟨bitsOf g.pmask, [], b.cls⟩ ∧
        t.agenda = s.agenda ++ [.ev (.partitionObtained id)] ∧ ∃ k, t.task? id = some k ∧ k.st = .waiting ∧ k.prep = some p) ∧
    (∀ p, p.dst.toNat % 64 = 0 → s.copyStatus b.job p = none → (s.die p.part.toNat).inFlight < 512 → Goes (exec (.copy h p) s) fun t => moved t ∧ t.ctxs = s.ctxs ∧
      (∃ k, t.task? id = some k ∧ k.st = .running ∧ k.kind = .copy p) ∧
      ∃ c, (t.die p.part.toNat).cmds = (s.die p.part.toNat).cmds ++ [c] ∧ c.kind = .packet p.src.toNat p.dst.toNat p.len.toNat id) ∧
    (∀ p, p.dst.toNat % 64 = 0 → s.copyStatus b.job p = some 0 → Goes (exec (.copy h p) s) fun t => moved t ∧ t.tasks = [] ∧ t.dies = s.dies) ∧
    ∀ ga (n : BitVec 12) es l, s.landRds b.job 64 (n.toNat + 1) ga.toNat = .ok es → s.nodeEntries b.job (n.toNat + 1) 0 es = .ok l →
      Goes (exec (.graph h ga n) s) fun t => moved t ∧ Tbl.get? t.graphs id = some (s.mkGraph b.job l) ∧ ∃ k, t.task? id = some k ∧ k.kind = .graph) ∧
  (∀ (s : State) (id : Nat) (k : Task) (p : Prep), s.tasks = [(id, k)] → k.st = .waiting → k.prep = some p → k.parent = none → s.phalt = false →
    (∀ l, k.kind = .launch l → Tbl.get? s.resvns id = none → s.partFree l.part.toNat none = true → (∀ e ∈ p.regs, e.getLsbD 49 = false) → p.args.length = 256 →
      p.consts.length ≤ 64 → Goes (exec (.partitionObtained id) s) fun t => Entered (t.ctx l.part.toNat) p l.part.toNat ∧ FreshDie (t.die l.part.toNat) p ∧
        ∃ j, t.task? id = some j ∧ j.st = .running) ∧
    ∀ q q' r hs cls, Tbl.get? s.resvns id = some ⟨q :: q' :: r, hs, cls⟩ → s.partFree q none = true →
      Goes (exec (.partitionObtained id) s) fun t => t = { s with parts := t.parts, resvns := t.resvns } ∧ t.part q = { s.part q with gang := some id } ∧
        (∀ n, n ≠ q → t.part n = s.part n) ∧ Tbl.get? t.resvns id = some ⟨q' :: r, hs ++ [q], cls⟩) ∧
  (∀ (s : State) (id : Nat) (r : Resvn), Tbl.get? s.resvns id = some r → r.held ≠ [] → r.todo ≠ [] →
    Goes (exec (.gangReserveTimeout id) s) fun t => t = { s with parts := t.parts, resvns := t.resvns } ∧
      (∀ n, t.part n = if n ∈ r.held then { s.part n with gang := none } else s.part n) ∧ Tbl.get? t.resvns id = some ⟨r.held ++ r.todo, [], r.cls - 1⟩) ∧
  (∀ (s : State) (id pa pb : Nat) (k : Task) (p : CopyP) (c : Cmd), s.task? id = some k → k.kind = .copy p →
    (s.die p.part.toNat).cmds.find? (·.packetOf id) = some c → (s.die p.part.toNat).cache = [] →
    s.translateCold (s.jobXlat k.job) .load (p.src.toNat + 64 * c.pos) = .ok pa → s.translateCold (s.jobXlat k.job) .store (p.dst.toNat + 64 * c.pos) = .ok pb →
    Plain s pa 64 → Plain s pb 64 →
    (c.pos + 1 < p.len.toNat / 64 → Goes (exec (.copyPacketComplete id) s) fun t => Stored s t pb 64 (loaded s pa 64) ∧ t.tasks = s.tasks ∧
      t.ctxs = s.ctxs ∧ (s.poisonIn pa 64 = true → pb / 64 ∈ t.poison) ∧
      (t.die p.part.toNat).cmds = (s.die p.part.toNat).cmds.map fun e =>
        if e.packetOf id then { e with pos := c.pos + 1, hurt := c.hurt || s.poisonIn pa 64 } else e) ∧
    (JobsReported s → s.tasks = [(id, k)] → s.berths = [] → s.graphs = [] → k.st = .running → k.hdr.csig = 0 → k.hdr.crec = false → k.parent = none →
      c.pos + 1 = p.len.toNat / 64 → Goes (exec (.copyPacketComplete id) s) fun t => t.tasks = [] ∧ Stored s t pb 64 (loaded s pa 64) ∧
        ∀ e ∈ (t.die p.part.toNat).cmds, e.packetOf id = false)) ∧
  (∀ (s : State) (g since : Nat) (k : Task), JobsReported s → s.graphs = [(g, ⟨[⟨.nop, [], .ready since⟩], 0⟩)] → s.tasks = [(g, k)] → g ≠ s.nextTask → k.kind = .graph → k.st = .running →
    k.hdr.csig = 0 → k.hdr.crec = false → k.parent = none → s.berths = [] →
    Goes (exec .graphNodeDispatch s) fun t => t.tasks = [] ∧ t.graphs = [] ∧ t.mem = s.mem ∧ t.dies = s.dies) ∧
  (∀ (s : State) (c : Nat),
    let x := s.ctx c
    (s.drained c = true → Goes (exec (.launchDrained c) s) fun t => t = { s with ctxs := t.ctxs } ∧ (∀ n, n ≠ c → t.ctx n = s.ctx n) ∧
      t.ctx c = { x with lst := .drained, spec := (t.ctx c).spec } ∧ ∀ r, x.spec = some r → r.st ≠ .discarding → (t.ctx c).spec = some { r with st := .finished }) ∧
    ∀ id k l, JobsReported s → s.tasks = [(id, k)] → x.task = some id → k.kind = .launch l → k.st = .running → k.ctxs = [c] → x.spec = none → x.lst = .drained → acked (k.ports.getD (s.portsFor k.hdr.scope)) = true →
      x.held = [] → x.gathers = [] → x.asked = none → x.bound = [] → (∀ d ∈ s.issueSet c, (s.die d).cache = []) → k.hdr.csig = 0 → k.hdr.crec = false → k.parent = none →
      s.berths = [] → Goes (exec (.launchCompletion c) s) fun t => (t.ctx c).lst = .idle ∧ (t.ctx c).task = none ∧ (t.ctx c).sc = x.sc ∧ t.tasks = [] ∧
        t.mem = s.mem ∧ ∀ n, n ≠ c → (t.ctx n).sc = (s.ctx n).sc) ∧
  ∀ (s : State) (n : Nat) (b : Berth) (l : LaunchP) (p : Prep) (vs : List (Nat × BitVec 32)), s.berths = [(n, b)] → s.specPlan b = some (l, p, vs) →
    s.noRun n = true → s.ready n b = false → p.args.length = 256 → p.consts.length ≤ 64 → Goes (exec (.specRunStart n) s) fun t =>
      let x := t.ctx l.part.toNat
      Entered x p l.part.toNat ∧ FreshDie (t.die l.part.toNat) p ∧ x.task = none ∧ t.mem = s.mem ∧ t.tasks = s.tasks ∧
        ∃ r, x.spec = some r ∧ r.berth = n ∧ r.pred = l ∧ r.versions = vs ∧ r.st = .running

/-! ### The host, the board and the secure block -/

/-- The host, links, boot and the board (R8, R270, R271, R375, R439 to R443, R447, R448). A CXL write to HBM puts its bytes at home, and a
read changes nothing; an access of the secure world without IDE has no effect. An acknowledgement lowers a count, and the last one lets a
waiting SIGNAL act. BOOTGO acts in ROM alone, and a verified image boots; a report covers the hashes of what booted. The capability records
lie in BAR0 one behind the other, and the last one ends the list. A reset waits in ROM with every state at its reset value, and memory as it
is. Links train before boot and go down after it. Heat sets HOT and the trip. A pulse removed from a launch is counted. Memory bytes survive
a module reset in the model (log 1); the pair's entry is the image's (log 9), and the image's check and the report's bytes are free (log 10). -/
def Obligations.HostResults : Prop :=
  (∀ (s : State) (via : HostAcc) (pa : Nat) (bs : List Byte), (via = .secBare → exec (.cxlMemWrite ⟨via, pa⟩ bs) s = .next s) ∧
    (via ≠ .secBare → s.jobs = [] → s.hostDown = false → bs ≠ [] → pa + bs.length ≤ bellBase → Goes (exec (.cxlMemWrite ⟨via, pa⟩ bs) s) fun t => t = { s with mem := t.mem, poison := t.poison } ∧
      ∀ a, t.memByte a = if pa ≤ a ∧ a < pa + bs.length then bs.getD (a - pa) 0 else s.memByte a)) ∧
  (∀ (s : State) (via : HostAcc) (a b : Nat), exec (.cxlMemRead ⟨via, a⟩ b) s = .next s) ∧
  (∀ (s : State) (a b n : Nat), s.tasks = [] → (∀ c xd k l, (s.ctx c).wait ≠ .coll xd k l) → Goes (exec (.storeAck a b n) s) fun t => t = { s with ctxs := t.ctxs, unacked := t.unacked } ∧ (∀ c, (t.ctx c).sc = (s.ctx c).sc) ∧
      t.unacked = s.unacked.map fun e => if e.1 = a ∧ e.2.1 = b then (a, b, e.2.2 - n) else e) ∧
  (∀ (s : State) (a b n id pa va : Nat) (store : Bool) (v : W64) (k : Task), JobsReported s → s.tasks = [(id, k)] → s.berths = [] → k.kind = .signal va store v →
    k.st = .running → k.cancelled = false → k.hdr.csig = 0 → k.hdr.crec = false → k.parent = none → k.ctxs = [] → k.writes = [] → k.ports = some [(a, b, n)] →
    s.translateCold (s.jobXlat k.job) (if store then .store else .atomic) va = .ok pa → Plain s pa 8 → s.poisonIn pa 8 = false →
    Goes (exec (.storeAck a b n) s) fun t => t.tasks = [] ∧ Stored s t pa 8 (if store then v.toNat else loaded s pa 8 + v.toNat)) ∧
  (∀ (s : State) (via : HostAcc) (w : W64),
    let acts : Prop := w = 1 ∧ s.boot = .rom ∧ via ≠ .secBare
    (acts → exec (.bootgo ⟨via, w⟩) s = .next { s with boot := .verify }) ∧ (¬acts → exec (.bootgo ⟨via, w⟩) s = .next s)) ∧
  (∀ (s : State), (s.boot ≠ .verify → exec .imageVerifyDone s = .next s) ∧
    (s.boot = .verify → Config.imageFail s.mem = 0 → Goes (exec .imageVerifyDone s) fun t => t.boot = .booted ∧ t.mem = s.mem ∧ t.fail = s.fail ∧
      t.imgHash = Config.imageHash s.mem ∧ t.cfgHash = Config.cfgHash s.mem ∧
      (t.ctx purser).lst = .running ∧ (t.ctx purser).pc = Config.purserEntry s.mem ∧ (∀ n, (t.ctx purser).sc.getX n = 0) ∧ ∀ c, c ≠ purser → t.ctx c = s.ctx c) ∧
    (s.boot = .verify → Config.imageFail s.mem ≠ 0 → Goes (exec .imageVerifyDone s) fun t => t = { s with boot := .failed, fail := t.fail } ∧ t.fail ≠ 0) ∧
    exec .moduleReset s = .next { State.reset with boot := .rom, mem := s.mem, poison := s.poison, stepNo := s.stepNo } ∧
    exec .powerRemoval s = .next { State.reset with stepNo := s.stepNo } ∧
    exec .throttlePoint s = .next { s with hot := true } ∧ exec .hotClear s = .next { s with hot := false } ∧
    exec .thermalTrip s = .next { s with trip := true }) ∧
  (∀ (s : State) (nonce : BitVec 512), (s.boot ≠ .booted → exec (.attestationRequest nonce) s = .next s) ∧
    (s.boot = .booted → exec (.attestationRequest nonce) s = .next { s with reports := s.reports ++ [Config.attest nonce s.imgHash s.cfgHash ident] })) ∧
  (∀ (s : State) (p cap : Nat),
    let downAt (i : Instr) (bank : Nat) (f : State → State) : Prop := Goes (exec i s) fun t => t = { f s with errs := t.errs } ∧
      (t.bank bank).valid = true ∧ ∀ k, k ≠ bank → t.bank k = s.bank k
    (p < 8 → s.caps.length = 8 → s.boot = .rom → s.caps.getD p 0 = 0 →
      exec (.memoryPortLinkTrain p cap) s = .next { s with caps := s.caps.set p (min portSpan (cap / 2 ^ 28 * 2 ^ 28)) }) ∧
    (s.boot = .booted → exec (.memoryPortLinkTrain p cap) s = .next s) ∧
    (p < 8 → s.boot = .booted → s.caps.getD p 0 ≠ 0 → p ∉ s.portsDown →
      downAt (.memoryPortLinkDown p) (672 + p) fun s => { s with portsDown := p :: s.portsDown }) ∧
    (p < 16 → p ∉ s.linksDown → downAt (.vyivoLinkDown p) (656 + p) fun s => { s with linksDown := p :: s.linksDown }) ∧
    (s.hostDown = false → downAt .hostPortLinkDown 680 fun s => { s with hostDown := true })) ∧
  (∀ (s : State) (via : HostAcc) (i o : Nat), (via = .secBare → s.hostRd via o = none) ∧ (via ≠ .secBare → s.hostRd via o = some (s.bar0 o)) ∧
    (s.boot = .booted → i < 5 → s.bar0 0x50 = BitVec.ofNat 64 (capOff 0) ∧ capOff i % 8 = 0 ∧ 0x60 ≤ capOff i ∧ capOff i + capSize i ≤ 0x10000 ∧
      (s.bar0 (capOff i)).toNat % 2 ^ 16 = i + 1 ∧ (s.bar0 (capOff i)).toNat / 2 ^ 24 = (if i = 4 then 0 else capOff (i + 1)) ∧
      (i < 4 → capOff i < capOff (i + 1)))) ∧
  ∀ (s : State) (c : Nat), (s.ctx c).lst ≠ .idle → c ≠ purser → c < 128 → s.gangDies c = [c] → Goes (exec (.throttlePulseRemoval c) s) fun t =>
    t = { s with parts := t.parts } ∧ (∀ p, p ≠ c → t.part p = s.part p) ∧ t.part c = { s.part c with ctrs := (t.part c).ctrs } ∧
      ∀ n, n < 56 → (s.part c).evsel.length = 56 → (s.part c).ctrs.length = 64 →
        (t.part c).ctrs.getD n 0 = (s.part c).ctrs.getD n 0 + if (s.part c).evsel.getD n 0 = 9 then 1 else 0

/-- The secure block (R4, R215, R286, R392, R394, R444, R445). A plain write replaces a register's value, reserved bits apart; JOBSEL and
PARTSEL select the job and the partition. A new clock ratio acts at the switch; 0b11 is ignored. PMODE changes the mode only while no job
exists, and clears counters and region tables. A new PJOB clears the partition's counters and events. A job-wide entry is set in every
partition of its job. A job that is closed when no task of it is left completes, and its record goes to the ring of its queues' HOMEPART;
which ring that is and the record's ID, TAG and BERTH are open (logs 4 and 21). A change of mode makes the dies and the pairs' caches anew (log 8), and how a job's
regions and PARTSEL act on partitions is a reading (log 18). -/
def Obligations.SecureBlockResults : Prop :=
  (∀ (s : State) (w : W64),
    let wr (a : BitVec 12) (t : State) : Prop := exec (.registerWrite a w) s = .next t
    let job (t : State) (f : Job → Job) : Prop := t = { s with jobs := t.jobs } ∧ ∀ j, t.job j = if j = s.jobsel then f (s.job j) else s.job j
    let sets (a : BitVec 12) (f : Job → Job) : Prop := Goes (exec (.registerWrite a w) s) fun t => job t f
    wr 0x200 { s with svcsel := BitVec.ofNat 64 (w.toNat % 2 ^ 19) } ∧ wr 0x402 { s with qtbase := w &&& ~~~63 } ∧
    wr 0x408 { s with jobsel := w.setWidth 16 } ∧ wr 0x410 { s with partsel := w.setWidth 7 } ∧ wr 0x4C0 { s with erbsel := w.setWidth 10 } ∧
    sets 0x409 (fun j => { j with xroot := w }) ∧ sets 0x40A (fun j => { j with vitcap := w.setWidth 2 }) ∧ sets 0x40C (fun j => { j with vsdef := w.setWidth 4 }) ∧
    sets 0x40D (fun j => { j with dbva := w.setWidth 56 &&& ~~~(0x1FFFFF : BitVec 56) }) ∧
    (10 ≤ w.toNat → w.toNat ≤ 10000 → sets 0x40B fun j => { j with idleto := w }) ∧ (w.toNat < 10 ∨ 10000 < w.toNat → wr 0x40B s) ∧
    (s.partsel.toNat < s.nparts → Goes (exec (.registerWrite 0x411 w) s) fun t => t = { s with parts := t.parts } ∧
      ∀ p, t.part p = if p = s.partsel.toNat then { s.part p with evring := w.setWidth 56 &&& ~~~(31 : BitVec 56) } else s.part p) ∧
    (∀ a ∈ [0x201, 0x210, 0x401, 0x404, 0x4C1, 0x4FF], wr a s)) ∧
  (∀ (s : State) (w : W64),
    (w.toNat % 4 = 3 → exec (.clkctlWrite w) s = .next s) ∧ (w.toNat % 4 ≠ 3 → exec (.clkctlWrite w) s = .next { s with clkNext := some (w.setWidth 2) }) ∧
    (∀ r, s.clkNext = some r → exec .clockRatioSwitch s = .next { s with clkctl := r, clkNext := none }) ∧
    (s.noJob = false ∨ w.getLsbD 0 = s.unprot → exec (.pmodeWrite w) s = .next s) ∧
    (s.noJob = true → w.getLsbD 0 ≠ s.unprot → Goes (exec (.pmodeWrite w) s) fun t =>
      t = { s with unprot := w.getLsbD 0, parts := t.parts, ctxs := t.ctxs, dies := [] } ∧
      (∀ c, t.ctx c = if c = purser then s.ctx c else { s.ctx c with icache := [], tlb := [] }) ∧
      ∀ p, t.part p = { s.part p with ctrs := List.replicate 64 0, evsel := List.replicate 56 0, regions := [] }) ∧
    let p := s.partsel.toNat
    let v : BitVec 17 := w.setWidth 17
    (s.nparts ≤ p ∨ (s.part p).pjobw = v → exec (.pjobWrite w) s = .next s) ∧
    (p < s.nparts → (s.part p).pjobw ≠ v → Goes (exec (.pjobWrite w) s) fun t => t = { s with parts := t.parts } ∧ (∀ k, k ≠ p → t.part k = s.part k) ∧
      t.part p = { s.part p with pjobw := v, ctrs := List.replicate 64 0, evsel := List.replicate 56 0, regions := (t.part p).regions } ∧
      ∀ e, e < 128 →
        Tbl.get 0 (t.part p).regions e = Tbl.get 0 (s.part p).regions e)) ∧
  (∀ (s : State) (j : BitVec 16) (n : Nat) (e : BitVec 256), (n < 128 ∨ 256 ≤ n → exec (.jobWideRegionSet j.toNat n e) s = .next s) ∧
    (128 ≤ n → n < 256 → (∀ x ∈ s.ctxs, x.2.spec = none) → (s.parts.map (·.1)).Nodup → Goes (exec (.jobWideRegionSet j.toNat n e) s) fun t => t = { s with parts := t.parts } ∧
      ∀ p, (s.part p).pjob = some j → Tbl.get 0 (t.part p).regions n = e &&& regionMask ∧
        ∀ k, k ≠ n → Tbl.get 0 (t.part p).regions k = Tbl.get 0 (s.part p).regions k)) ∧
  ∀ (s : State) (j : BitVec 16), JobsReported s → s.tasks = [] → (∀ p ∈ s.phases, p.2.job = j → p.2.used = false) → (s.job j).reported = false →
    let closes (t : State) : Prop := t.job j = { s.job j with closed := true, reported := true } ∧ ∀ k, k ≠ j → t.job k = s.job k
    ((s.job j).home = none → Goes (exec (.jobClose j.toNat) s) fun t => t = { s with jobs := t.jobs } ∧ closes t) ∧
    ∀ h, (s.job j).home = some h → (s.part h).heldRecs ≠ [] → Goes (exec (.jobClose j.toNat) s) fun t => t = { s with jobs := t.jobs, parts := t.parts } ∧ closes t ∧
      (∀ p, p ≠ h → t.part p = s.part p) ∧ ∃ r, t.part h = { s.part h with heldRecs := (s.part h).heldRecs ++ [⟨r, false, none⟩] } ∧
        bf r 39 36 = 4 ∧ bf r 47 40 = (s.job j).status % 256 ∧ bf r 255 192 = (Config.timeAt s.stepNo).toNat
end

