-- ==== Sys2Proof/Laws/Tbl.lean ====
section
/-! SUPPORT. What reading a table gives after each update, and the canonical form. -/

namespace Sys2Proof.Laws

open Sys2Proof

variable {α : Type}

theorem tbl_get?_put (t : Tbl α) (k : Nat) (v : α) (j : Nat) : (t.put k v).get? j = if j = k then some v else t.get? j := by
  induction t with
  | nil => simp [Tbl.put, Tbl.get?, eq_comm]
  | cons e r ih =>
    obtain ⟨i, w⟩ := e
    rw [Tbl.put]
    split
    · rw [Tbl.get?]; split <;> simp_all [eq_comm]
    · split
      · subst_vars; simp only [Tbl.get?]; split <;> simp_all [eq_comm]
      · simp only [Tbl.get?, ih]; split <;> simp_all

theorem tbl_get?_del (t : Tbl α) (k : Nat) (j : Nat) : (t.del k).get? j = if j = k then none else t.get? j := by
  induction t with
  | nil => simp [Tbl.del, Tbl.get?]
  | cons e r ih =>
    obtain ⟨i, w⟩ := e
    simp only [Tbl.del] at ih ⊢
    rw [List.filter_cons]
    split
    · simp only [Tbl.get?, ih]; split <;> simp_all
    next hn =>
      have hk : i = k := by simpa using hn
      subst hk
      simp only [ih, Tbl.get?]
      by_cases hj : j = i
      · simp [hj]
      · simp [hj, Ne.symm hj]

@[simp] theorem tbl_get_put (d : α) (t : Tbl α) (k : Nat) (v : α) (j : Nat) :
    (t.put k v).get d j = if j = k then v else t.get d j := by
  simp only [Tbl.get, tbl_get?_put]; split <;> rfl

@[simp] theorem tbl_get_del (d : α) (t : Tbl α) (k : Nat) (j : Nat) : (t.del k).get d j = if j = k then d else t.get d j := by
  simp only [Tbl.get, tbl_get?_del]; split <;> rfl

@[simp] theorem tbl_get_set [DecidableEq α] (d : α) (t : Tbl α) (k : Nat) (v : α) (j : Nat) :
    (t.set d k v).get d j = if j = k then v else t.get d j := by
  unfold Tbl.set
  split
  · subst_vars; exact tbl_get_del ..
  · exact tbl_get_put ..

/-- A second write of a key leaves nothing of the first. -/
@[simp] theorem tbl_put_put (t : Tbl α) (k : Nat) (v w : α) : (t.put k v).put k w = t.put k w := by
  induction t with
  | nil => simp [Tbl.put]
  | cons e r ih =>
    obtain ⟨i, x⟩ := e
    by_cases h : k < i
    · simp [Tbl.put, h]
    · by_cases h' : i = k
      · subst h'; simp [Tbl.put]
      · simp [Tbl.put, h, h', ih]

/-! ### The canonical form -/

theorem tbl_wfFrom_mono [DecidableEq α] {d : α} {lo hi : Nat} {t : Tbl α} (h : Tbl.wfFrom d hi t = true) (hl : lo ≤ hi) :
    Tbl.wfFrom d lo t = true := by
  cases t with
  | nil => rfl
  | cons e r => simp only [Tbl.wfFrom, Bool.and_eq_true, decide_eq_true_eq] at h ⊢; exact ⟨⟨by omega, h.1.2⟩, h.2⟩

theorem tbl_wfFrom_put [DecidableEq α] {d v : α} {k : Nat} (hv : v ≠ d) {t : Tbl α} {lo : Nat} (hk : lo ≤ k)
    (h : Tbl.wfFrom d lo t = true) : Tbl.wfFrom d lo (t.put k v) = true := by
  induction t generalizing lo with
  | nil => simp [Tbl.put, Tbl.wfFrom, hk, hv]
  | cons e r ih =>
    obtain ⟨i, w⟩ := e
    simp only [Tbl.wfFrom, Bool.and_eq_true, decide_eq_true_eq] at h
    rw [Tbl.put]
    split
    · simp only [Tbl.wfFrom, Bool.and_eq_true, decide_eq_true_eq]; exact ⟨⟨hk, hv⟩, ⟨by omega, h.1.2⟩, h.2⟩
    · split
      · subst_vars; simp only [Tbl.wfFrom, Bool.and_eq_true, decide_eq_true_eq]; exact ⟨⟨hk, hv⟩, h.2⟩
      · simp only [Tbl.wfFrom, Bool.and_eq_true, decide_eq_true_eq]; exact ⟨h.1, ih (by omega) h.2⟩

theorem tbl_wfFrom_del [DecidableEq α] {d : α} {k : Nat} {t : Tbl α} {lo : Nat} (h : Tbl.wfFrom d lo t = true) :
    Tbl.wfFrom d lo (t.del k) = true := by
  induction t generalizing lo with
  | nil => rfl
  | cons e r ih =>
    obtain ⟨i, w⟩ := e
    simp only [Tbl.wfFrom, Bool.and_eq_true, decide_eq_true_eq] at h
    have hr := ih h.2
    simp only [Tbl.del] at hr ⊢
    rw [List.filter_cons]
    split
    · simp only [Tbl.wfFrom, Bool.and_eq_true, decide_eq_true_eq]; exact ⟨h.1, hr⟩
    · exact tbl_wfFrom_mono hr (by omega)

theorem tbl_wfFrom_set [DecidableEq α] {d v : α} {k : Nat} {t : Tbl α} (h : Tbl.wfFrom d 0 t = true) :
    Tbl.wfFrom d 0 (t.set d k v) = true := by
  unfold Tbl.set
  split
  · exact tbl_wfFrom_del h
  · exact tbl_wfFrom_put ‹_› (Nat.zero_le _) h

end Sys2Proof.Laws
end

