-- ==== Sys2Proof/Laws/State.lean ====
section
/-! SUPPORT. For each update of the state, what each field holds after it; and what reading a context, a die, a register or a
partition gives after it. -/

namespace Sys2Proof.Laws

open Sys2Proof Sys2Proof.Machine

/-! ### Fields -/

@[simp] theorem state_setCtx_agenda (s : State) (c : Nat) (x : Ctx) : (s.setCtx c x).agenda = s.agenda := rfl
@[simp] theorem state_setCtx_stepNo (s : State) (c : Nat) (x : Ctx) : (s.setCtx c x).stepNo = s.stepNo := rfl
@[simp] theorem state_setCtx_cur (s : State) (c : Nat) (x : Ctx) : (s.setCtx c x).cur = s.cur := rfl
@[simp] theorem state_setCtx_dies (s : State) (c : Nat) (x : Ctx) : (s.setCtx c x).dies = s.dies := rfl
@[simp] theorem state_setCtx_parts (s : State) (c : Nat) (x : Ctx) : (s.setCtx c x).parts = s.parts := rfl
@[simp] theorem state_setCtx_jobs (s : State) (c : Nat) (x : Ctx) : (s.setCtx c x).jobs = s.jobs := rfl
@[simp] theorem state_setCtx_mem (s : State) (c : Nat) (x : Ctx) : (s.setCtx c x).mem = s.mem := rfl
@[simp] theorem state_setCtx_poison (s : State) (c : Nat) (x : Ctx) : (s.setCtx c x).poison = s.poison := rfl
@[simp] theorem state_setCtx_unprot (s : State) (c : Nat) (x : Ctx) : (s.setCtx c x).unprot = s.unprot := rfl
@[simp] theorem state_setCtx_boot (s : State) (c : Nat) (x : Ctx) : (s.setCtx c x).boot = s.boot := rfl
@[simp] theorem state_setCtx_phalt (s : State) (c : Nat) (x : Ctx) : (s.setCtx c x).phalt = s.phalt := rfl
@[simp] theorem state_setCtx_errs (s : State) (c : Nat) (x : Ctx) : (s.setCtx c x).errs = s.errs := rfl
@[simp] theorem state_setCtx_caps (s : State) (c : Nat) (x : Ctx) : (s.setCtx c x).caps = s.caps := rfl
@[simp] theorem state_setCtx_portsDown (s : State) (c : Nat) (x : Ctx) : (s.setCtx c x).portsDown = s.portsDown := rfl
@[simp] theorem state_setCtx_berths (s : State) (c : Nat) (x : Ctx) : (s.setCtx c x).berths = s.berths := rfl
@[simp] theorem state_setCtx_waitQ (s : State) (c : Nat) (x : Ctx) : (s.setCtx c x).waitQ = s.waitQ := rfl
@[simp] theorem state_setCtx_tasks (s : State) (c : Nat) (x : Ctx) : (s.setCtx c x).tasks = s.tasks := rfl
@[simp] theorem state_setCtx_graphs (s : State) (c : Nat) (x : Ctx) : (s.setCtx c x).graphs = s.graphs := rfl
@[simp] theorem state_setCtx_phases (s : State) (c : Nat) (x : Ctx) : (s.setCtx c x).phases = s.phases := rfl
@[simp] theorem state_setCtx_bollards (s : State) (c : Nat) (x : Ctx) : (s.setCtx c x).bollards = s.bollards := rfl
@[simp] theorem state_setCtx_regr (s : State) (c : Nat) (x : Ctx) : (s.setCtx c x).regr = s.regr := rfl
@[simp] theorem state_setCtx_groups (s : State) (c : Nat) (x : Ctx) : (s.setCtx c x).groups = s.groups := rfl
@[simp] theorem state_updCtx_agenda (s : State) (c : Nat) (f : Ctx → Ctx) : (s.updCtx c f).agenda = s.agenda := rfl
@[simp] theorem state_updCtx_stepNo (s : State) (c : Nat) (f : Ctx → Ctx) : (s.updCtx c f).stepNo = s.stepNo := rfl
@[simp] theorem state_updCtx_cur (s : State) (c : Nat) (f : Ctx → Ctx) : (s.updCtx c f).cur = s.cur := rfl
@[simp] theorem state_updCtx_dies (s : State) (c : Nat) (f : Ctx → Ctx) : (s.updCtx c f).dies = s.dies := rfl
@[simp] theorem state_updCtx_parts (s : State) (c : Nat) (f : Ctx → Ctx) : (s.updCtx c f).parts = s.parts := rfl
@[simp] theorem state_updCtx_jobs (s : State) (c : Nat) (f : Ctx → Ctx) : (s.updCtx c f).jobs = s.jobs := rfl
@[simp] theorem state_updCtx_mem (s : State) (c : Nat) (f : Ctx → Ctx) : (s.updCtx c f).mem = s.mem := rfl
@[simp] theorem state_updCtx_poison (s : State) (c : Nat) (f : Ctx → Ctx) : (s.updCtx c f).poison = s.poison := rfl
@[simp] theorem state_updCtx_unprot (s : State) (c : Nat) (f : Ctx → Ctx) : (s.updCtx c f).unprot = s.unprot := rfl
@[simp] theorem state_updCtx_boot (s : State) (c : Nat) (f : Ctx → Ctx) : (s.updCtx c f).boot = s.boot := rfl
@[simp] theorem state_updCtx_phalt (s : State) (c : Nat) (f : Ctx → Ctx) : (s.updCtx c f).phalt = s.phalt := rfl
@[simp] theorem state_updCtx_errs (s : State) (c : Nat) (f : Ctx → Ctx) : (s.updCtx c f).errs = s.errs := rfl
@[simp] theorem state_updCtx_caps (s : State) (c : Nat) (f : Ctx → Ctx) : (s.updCtx c f).caps = s.caps := rfl
@[simp] theorem state_updCtx_portsDown (s : State) (c : Nat) (f : Ctx → Ctx) : (s.updCtx c f).portsDown = s.portsDown := rfl
@[simp] theorem state_updCtx_berths (s : State) (c : Nat) (f : Ctx → Ctx) : (s.updCtx c f).berths = s.berths := rfl
@[simp] theorem state_updCtx_waitQ (s : State) (c : Nat) (f : Ctx → Ctx) : (s.updCtx c f).waitQ = s.waitQ := rfl
@[simp] theorem state_updCtx_tasks (s : State) (c : Nat) (f : Ctx → Ctx) : (s.updCtx c f).tasks = s.tasks := rfl
@[simp] theorem state_updCtx_graphs (s : State) (c : Nat) (f : Ctx → Ctx) : (s.updCtx c f).graphs = s.graphs := rfl
@[simp] theorem state_updCtx_phases (s : State) (c : Nat) (f : Ctx → Ctx) : (s.updCtx c f).phases = s.phases := rfl
@[simp] theorem state_updCtx_bollards (s : State) (c : Nat) (f : Ctx → Ctx) : (s.updCtx c f).bollards = s.bollards := rfl
@[simp] theorem state_updCtx_regr (s : State) (c : Nat) (f : Ctx → Ctx) : (s.updCtx c f).regr = s.regr := rfl
@[simp] theorem state_updCtx_groups (s : State) (c : Nat) (f : Ctx → Ctx) : (s.updCtx c f).groups = s.groups := rfl
@[simp] theorem state_updCx_agenda (s : State) (f : Ctx → Ctx) : (s.updCx f).agenda = s.agenda := rfl
@[simp] theorem state_updCx_stepNo (s : State) (f : Ctx → Ctx) : (s.updCx f).stepNo = s.stepNo := rfl
@[simp] theorem state_updCx_cur (s : State) (f : Ctx → Ctx) : (s.updCx f).cur = s.cur := rfl
@[simp] theorem state_updCx_dies (s : State) (f : Ctx → Ctx) : (s.updCx f).dies = s.dies := rfl
@[simp] theorem state_updCx_parts (s : State) (f : Ctx → Ctx) : (s.updCx f).parts = s.parts := rfl
@[simp] theorem state_updCx_jobs (s : State) (f : Ctx → Ctx) : (s.updCx f).jobs = s.jobs := rfl
@[simp] theorem state_updCx_mem (s : State) (f : Ctx → Ctx) : (s.updCx f).mem = s.mem := rfl
@[simp] theorem state_updCx_poison (s : State) (f : Ctx → Ctx) : (s.updCx f).poison = s.poison := rfl
@[simp] theorem state_updCx_unprot (s : State) (f : Ctx → Ctx) : (s.updCx f).unprot = s.unprot := rfl
@[simp] theorem state_updCx_boot (s : State) (f : Ctx → Ctx) : (s.updCx f).boot = s.boot := rfl
@[simp] theorem state_updCx_phalt (s : State) (f : Ctx → Ctx) : (s.updCx f).phalt = s.phalt := rfl
@[simp] theorem state_updCx_errs (s : State) (f : Ctx → Ctx) : (s.updCx f).errs = s.errs := rfl
@[simp] theorem state_updCx_caps (s : State) (f : Ctx → Ctx) : (s.updCx f).caps = s.caps := rfl
@[simp] theorem state_updCx_portsDown (s : State) (f : Ctx → Ctx) : (s.updCx f).portsDown = s.portsDown := rfl
@[simp] theorem state_updCx_berths (s : State) (f : Ctx → Ctx) : (s.updCx f).berths = s.berths := rfl
@[simp] theorem state_updCx_waitQ (s : State) (f : Ctx → Ctx) : (s.updCx f).waitQ = s.waitQ := rfl
@[simp] theorem state_updCx_tasks (s : State) (f : Ctx → Ctx) : (s.updCx f).tasks = s.tasks := rfl
@[simp] theorem state_updCx_graphs (s : State) (f : Ctx → Ctx) : (s.updCx f).graphs = s.graphs := rfl
@[simp] theorem state_updCx_phases (s : State) (f : Ctx → Ctx) : (s.updCx f).phases = s.phases := rfl
@[simp] theorem state_updCx_bollards (s : State) (f : Ctx → Ctx) : (s.updCx f).bollards = s.bollards := rfl
@[simp] theorem state_updCx_regr (s : State) (f : Ctx → Ctx) : (s.updCx f).regr = s.regr := rfl
@[simp] theorem state_updCx_groups (s : State) (f : Ctx → Ctx) : (s.updCx f).groups = s.groups := rfl
@[simp] theorem state_setDie_agenda (s : State) (d : Nat) (y : Die) : (s.setDie d y).agenda = s.agenda := rfl
@[simp] theorem state_setDie_stepNo (s : State) (d : Nat) (y : Die) : (s.setDie d y).stepNo = s.stepNo := rfl
@[simp] theorem state_setDie_cur (s : State) (d : Nat) (y : Die) : (s.setDie d y).cur = s.cur := rfl
@[simp] theorem state_setDie_ctxs (s : State) (d : Nat) (y : Die) : (s.setDie d y).ctxs = s.ctxs := rfl
@[simp] theorem state_setDie_parts (s : State) (d : Nat) (y : Die) : (s.setDie d y).parts = s.parts := rfl
@[simp] theorem state_setDie_jobs (s : State) (d : Nat) (y : Die) : (s.setDie d y).jobs = s.jobs := rfl
@[simp] theorem state_setDie_mem (s : State) (d : Nat) (y : Die) : (s.setDie d y).mem = s.mem := rfl
@[simp] theorem state_setDie_poison (s : State) (d : Nat) (y : Die) : (s.setDie d y).poison = s.poison := rfl
@[simp] theorem state_setDie_unprot (s : State) (d : Nat) (y : Die) : (s.setDie d y).unprot = s.unprot := rfl
@[simp] theorem state_setDie_boot (s : State) (d : Nat) (y : Die) : (s.setDie d y).boot = s.boot := rfl
@[simp] theorem state_setDie_phalt (s : State) (d : Nat) (y : Die) : (s.setDie d y).phalt = s.phalt := rfl
@[simp] theorem state_setDie_errs (s : State) (d : Nat) (y : Die) : (s.setDie d y).errs = s.errs := rfl
@[simp] theorem state_setDie_caps (s : State) (d : Nat) (y : Die) : (s.setDie d y).caps = s.caps := rfl
@[simp] theorem state_setDie_portsDown (s : State) (d : Nat) (y : Die) : (s.setDie d y).portsDown = s.portsDown := rfl
@[simp] theorem state_setDie_berths (s : State) (d : Nat) (y : Die) : (s.setDie d y).berths = s.berths := rfl
@[simp] theorem state_setDie_waitQ (s : State) (d : Nat) (y : Die) : (s.setDie d y).waitQ = s.waitQ := rfl
@[simp] theorem state_setDie_tasks (s : State) (d : Nat) (y : Die) : (s.setDie d y).tasks = s.tasks := rfl
@[simp] theorem state_setDie_graphs (s : State) (d : Nat) (y : Die) : (s.setDie d y).graphs = s.graphs := rfl
@[simp] theorem state_setDie_phases (s : State) (d : Nat) (y : Die) : (s.setDie d y).phases = s.phases := rfl
@[simp] theorem state_setDie_bollards (s : State) (d : Nat) (y : Die) : (s.setDie d y).bollards = s.bollards := rfl
@[simp] theorem state_setDie_regr (s : State) (d : Nat) (y : Die) : (s.setDie d y).regr = s.regr := rfl
@[simp] theorem state_setDie_groups (s : State) (d : Nat) (y : Die) : (s.setDie d y).groups = s.groups := rfl
@[simp] theorem state_updDie_agenda (s : State) (d : Nat) (f : Die → Die) : (s.updDie d f).agenda = s.agenda := rfl
@[simp] theorem state_updDie_stepNo (s : State) (d : Nat) (f : Die → Die) : (s.updDie d f).stepNo = s.stepNo := rfl
@[simp] theorem state_updDie_cur (s : State) (d : Nat) (f : Die → Die) : (s.updDie d f).cur = s.cur := rfl
@[simp] theorem state_updDie_ctxs (s : State) (d : Nat) (f : Die → Die) : (s.updDie d f).ctxs = s.ctxs := rfl
@[simp] theorem state_updDie_parts (s : State) (d : Nat) (f : Die → Die) : (s.updDie d f).parts = s.parts := rfl
@[simp] theorem state_updDie_jobs (s : State) (d : Nat) (f : Die → Die) : (s.updDie d f).jobs = s.jobs := rfl
@[simp] theorem state_updDie_mem (s : State) (d : Nat) (f : Die → Die) : (s.updDie d f).mem = s.mem := rfl
@[simp] theorem state_updDie_poison (s : State) (d : Nat) (f : Die → Die) : (s.updDie d f).poison = s.poison := rfl
@[simp] theorem state_updDie_unprot (s : State) (d : Nat) (f : Die → Die) : (s.updDie d f).unprot = s.unprot := rfl
@[simp] theorem state_updDie_boot (s : State) (d : Nat) (f : Die → Die) : (s.updDie d f).boot = s.boot := rfl
@[simp] theorem state_updDie_phalt (s : State) (d : Nat) (f : Die → Die) : (s.updDie d f).phalt = s.phalt := rfl
@[simp] theorem state_updDie_errs (s : State) (d : Nat) (f : Die → Die) : (s.updDie d f).errs = s.errs := rfl
@[simp] theorem state_updDie_caps (s : State) (d : Nat) (f : Die → Die) : (s.updDie d f).caps = s.caps := rfl
@[simp] theorem state_updDie_portsDown (s : State) (d : Nat) (f : Die → Die) : (s.updDie d f).portsDown = s.portsDown := rfl
@[simp] theorem state_updDie_berths (s : State) (d : Nat) (f : Die → Die) : (s.updDie d f).berths = s.berths := rfl
@[simp] theorem state_updDie_waitQ (s : State) (d : Nat) (f : Die → Die) : (s.updDie d f).waitQ = s.waitQ := rfl
@[simp] theorem state_updDie_tasks (s : State) (d : Nat) (f : Die → Die) : (s.updDie d f).tasks = s.tasks := rfl
@[simp] theorem state_updDie_graphs (s : State) (d : Nat) (f : Die → Die) : (s.updDie d f).graphs = s.graphs := rfl
@[simp] theorem state_updDie_phases (s : State) (d : Nat) (f : Die → Die) : (s.updDie d f).phases = s.phases := rfl
@[simp] theorem state_updDie_bollards (s : State) (d : Nat) (f : Die → Die) : (s.updDie d f).bollards = s.bollards := rfl
@[simp] theorem state_updDie_regr (s : State) (d : Nat) (f : Die → Die) : (s.updDie d f).regr = s.regr := rfl
@[simp] theorem state_updDie_groups (s : State) (d : Nat) (f : Die → Die) : (s.updDie d f).groups = s.groups := rfl
@[simp] theorem state_updDx_agenda (s : State) (f : Die → Die) : (s.updDx f).agenda = s.agenda := rfl
@[simp] theorem state_updDx_stepNo (s : State) (f : Die → Die) : (s.updDx f).stepNo = s.stepNo := rfl
@[simp] theorem state_updDx_cur (s : State) (f : Die → Die) : (s.updDx f).cur = s.cur := rfl
@[simp] theorem state_updDx_ctxs (s : State) (f : Die → Die) : (s.updDx f).ctxs = s.ctxs := rfl
@[simp] theorem state_updDx_parts (s : State) (f : Die → Die) : (s.updDx f).parts = s.parts := rfl
@[simp] theorem state_updDx_jobs (s : State) (f : Die → Die) : (s.updDx f).jobs = s.jobs := rfl
@[simp] theorem state_updDx_mem (s : State) (f : Die → Die) : (s.updDx f).mem = s.mem := rfl
@[simp] theorem state_updDx_poison (s : State) (f : Die → Die) : (s.updDx f).poison = s.poison := rfl
@[simp] theorem state_updDx_unprot (s : State) (f : Die → Die) : (s.updDx f).unprot = s.unprot := rfl
@[simp] theorem state_updDx_boot (s : State) (f : Die → Die) : (s.updDx f).boot = s.boot := rfl
@[simp] theorem state_updDx_phalt (s : State) (f : Die → Die) : (s.updDx f).phalt = s.phalt := rfl
@[simp] theorem state_updDx_errs (s : State) (f : Die → Die) : (s.updDx f).errs = s.errs := rfl
@[simp] theorem state_updDx_caps (s : State) (f : Die → Die) : (s.updDx f).caps = s.caps := rfl
@[simp] theorem state_updDx_portsDown (s : State) (f : Die → Die) : (s.updDx f).portsDown = s.portsDown := rfl
@[simp] theorem state_updDx_berths (s : State) (f : Die → Die) : (s.updDx f).berths = s.berths := rfl
@[simp] theorem state_updDx_waitQ (s : State) (f : Die → Die) : (s.updDx f).waitQ = s.waitQ := rfl
@[simp] theorem state_updDx_tasks (s : State) (f : Die → Die) : (s.updDx f).tasks = s.tasks := rfl
@[simp] theorem state_updDx_graphs (s : State) (f : Die → Die) : (s.updDx f).graphs = s.graphs := rfl
@[simp] theorem state_updDx_phases (s : State) (f : Die → Die) : (s.updDx f).phases = s.phases := rfl
@[simp] theorem state_updDx_bollards (s : State) (f : Die → Die) : (s.updDx f).bollards = s.bollards := rfl
@[simp] theorem state_updDx_regr (s : State) (f : Die → Die) : (s.updDx f).regr = s.regr := rfl
@[simp] theorem state_updDx_groups (s : State) (f : Die → Die) : (s.updDx f).groups = s.groups := rfl
@[simp] theorem state_updPart_agenda (s : State) (p : Nat) (f : Part → Part) : (s.updPart p f).agenda = s.agenda := rfl
@[simp] theorem state_updPart_stepNo (s : State) (p : Nat) (f : Part → Part) : (s.updPart p f).stepNo = s.stepNo := rfl
@[simp] theorem state_updPart_cur (s : State) (p : Nat) (f : Part → Part) : (s.updPart p f).cur = s.cur := rfl
@[simp] theorem state_updPart_ctxs (s : State) (p : Nat) (f : Part → Part) : (s.updPart p f).ctxs = s.ctxs := rfl
@[simp] theorem state_updPart_dies (s : State) (p : Nat) (f : Part → Part) : (s.updPart p f).dies = s.dies := rfl
@[simp] theorem state_updPart_jobs (s : State) (p : Nat) (f : Part → Part) : (s.updPart p f).jobs = s.jobs := rfl
@[simp] theorem state_updPart_mem (s : State) (p : Nat) (f : Part → Part) : (s.updPart p f).mem = s.mem := rfl
@[simp] theorem state_updPart_poison (s : State) (p : Nat) (f : Part → Part) : (s.updPart p f).poison = s.poison := rfl
@[simp] theorem state_updPart_unprot (s : State) (p : Nat) (f : Part → Part) : (s.updPart p f).unprot = s.unprot := rfl
@[simp] theorem state_updPart_boot (s : State) (p : Nat) (f : Part → Part) : (s.updPart p f).boot = s.boot := rfl
@[simp] theorem state_updPart_phalt (s : State) (p : Nat) (f : Part → Part) : (s.updPart p f).phalt = s.phalt := rfl
@[simp] theorem state_updPart_errs (s : State) (p : Nat) (f : Part → Part) : (s.updPart p f).errs = s.errs := rfl
@[simp] theorem state_updPart_caps (s : State) (p : Nat) (f : Part → Part) : (s.updPart p f).caps = s.caps := rfl
@[simp] theorem state_updPart_portsDown (s : State) (p : Nat) (f : Part → Part) : (s.updPart p f).portsDown = s.portsDown := rfl
@[simp] theorem state_updPart_berths (s : State) (p : Nat) (f : Part → Part) : (s.updPart p f).berths = s.berths := rfl
@[simp] theorem state_updPart_waitQ (s : State) (p : Nat) (f : Part → Part) : (s.updPart p f).waitQ = s.waitQ := rfl
@[simp] theorem state_updPart_tasks (s : State) (p : Nat) (f : Part → Part) : (s.updPart p f).tasks = s.tasks := rfl
@[simp] theorem state_updPart_graphs (s : State) (p : Nat) (f : Part → Part) : (s.updPart p f).graphs = s.graphs := rfl
@[simp] theorem state_updPart_phases (s : State) (p : Nat) (f : Part → Part) : (s.updPart p f).phases = s.phases := rfl
@[simp] theorem state_updPart_bollards (s : State) (p : Nat) (f : Part → Part) : (s.updPart p f).bollards = s.bollards := rfl
@[simp] theorem state_updPart_regr (s : State) (p : Nat) (f : Part → Part) : (s.updPart p f).regr = s.regr := rfl
@[simp] theorem state_updPart_groups (s : State) (p : Nat) (f : Part → Part) : (s.updPart p f).groups = s.groups := rfl
@[simp] theorem state_setByte_agenda (s : State) (a : Nat) (v : Byte) : (s.setByte a v).agenda = s.agenda := rfl
@[simp] theorem state_setByte_stepNo (s : State) (a : Nat) (v : Byte) : (s.setByte a v).stepNo = s.stepNo := rfl
@[simp] theorem state_setByte_cur (s : State) (a : Nat) (v : Byte) : (s.setByte a v).cur = s.cur := rfl
@[simp] theorem state_setByte_ctxs (s : State) (a : Nat) (v : Byte) : (s.setByte a v).ctxs = s.ctxs := rfl
@[simp] theorem state_setByte_dies (s : State) (a : Nat) (v : Byte) : (s.setByte a v).dies = s.dies := rfl
@[simp] theorem state_setByte_parts (s : State) (a : Nat) (v : Byte) : (s.setByte a v).parts = s.parts := rfl
@[simp] theorem state_setByte_jobs (s : State) (a : Nat) (v : Byte) : (s.setByte a v).jobs = s.jobs := rfl
@[simp] theorem state_setByte_poison (s : State) (a : Nat) (v : Byte) : (s.setByte a v).poison = s.poison := rfl
@[simp] theorem state_setByte_unprot (s : State) (a : Nat) (v : Byte) : (s.setByte a v).unprot = s.unprot := rfl
@[simp] theorem state_setByte_boot (s : State) (a : Nat) (v : Byte) : (s.setByte a v).boot = s.boot := rfl
@[simp] theorem state_setByte_phalt (s : State) (a : Nat) (v : Byte) : (s.setByte a v).phalt = s.phalt := rfl
@[simp] theorem state_setByte_errs (s : State) (a : Nat) (v : Byte) : (s.setByte a v).errs = s.errs := rfl
@[simp] theorem state_setByte_caps (s : State) (a : Nat) (v : Byte) : (s.setByte a v).caps = s.caps := rfl
@[simp] theorem state_setByte_portsDown (s : State) (a : Nat) (v : Byte) : (s.setByte a v).portsDown = s.portsDown := rfl
@[simp] theorem state_setByte_berths (s : State) (a : Nat) (v : Byte) : (s.setByte a v).berths = s.berths := rfl
@[simp] theorem state_setByte_waitQ (s : State) (a : Nat) (v : Byte) : (s.setByte a v).waitQ = s.waitQ := rfl
@[simp] theorem state_setByte_tasks (s : State) (a : Nat) (v : Byte) : (s.setByte a v).tasks = s.tasks := rfl
@[simp] theorem state_setByte_graphs (s : State) (a : Nat) (v : Byte) : (s.setByte a v).graphs = s.graphs := rfl
@[simp] theorem state_setByte_phases (s : State) (a : Nat) (v : Byte) : (s.setByte a v).phases = s.phases := rfl
@[simp] theorem state_setByte_bollards (s : State) (a : Nat) (v : Byte) : (s.setByte a v).bollards = s.bollards := rfl
@[simp] theorem state_setByte_regr (s : State) (a : Nat) (v : Byte) : (s.setByte a v).regr = s.regr := rfl
@[simp] theorem state_setByte_groups (s : State) (a : Nat) (v : Byte) : (s.setByte a v).groups = s.groups := rfl
@[simp] theorem state_post_stepNo (s : State) (i : Instr) : (s.post i).stepNo = s.stepNo := rfl
@[simp] theorem state_post_cur (s : State) (i : Instr) : (s.post i).cur = s.cur := rfl
@[simp] theorem state_post_ctxs (s : State) (i : Instr) : (s.post i).ctxs = s.ctxs := rfl
@[simp] theorem state_post_dies (s : State) (i : Instr) : (s.post i).dies = s.dies := rfl
@[simp] theorem state_post_parts (s : State) (i : Instr) : (s.post i).parts = s.parts := rfl
@[simp] theorem state_post_jobs (s : State) (i : Instr) : (s.post i).jobs = s.jobs := rfl
@[simp] theorem state_post_mem (s : State) (i : Instr) : (s.post i).mem = s.mem := rfl
@[simp] theorem state_post_poison (s : State) (i : Instr) : (s.post i).poison = s.poison := rfl
@[simp] theorem state_post_unprot (s : State) (i : Instr) : (s.post i).unprot = s.unprot := rfl
@[simp] theorem state_post_boot (s : State) (i : Instr) : (s.post i).boot = s.boot := rfl
@[simp] theorem state_post_phalt (s : State) (i : Instr) : (s.post i).phalt = s.phalt := rfl
@[simp] theorem state_post_errs (s : State) (i : Instr) : (s.post i).errs = s.errs := rfl
@[simp] theorem state_post_caps (s : State) (i : Instr) : (s.post i).caps = s.caps := rfl
@[simp] theorem state_post_portsDown (s : State) (i : Instr) : (s.post i).portsDown = s.portsDown := rfl
@[simp] theorem state_post_berths (s : State) (i : Instr) : (s.post i).berths = s.berths := rfl
@[simp] theorem state_post_waitQ (s : State) (i : Instr) : (s.post i).waitQ = s.waitQ := rfl
@[simp] theorem state_post_tasks (s : State) (i : Instr) : (s.post i).tasks = s.tasks := rfl
@[simp] theorem state_post_graphs (s : State) (i : Instr) : (s.post i).graphs = s.graphs := rfl
@[simp] theorem state_post_phases (s : State) (i : Instr) : (s.post i).phases = s.phases := rfl
@[simp] theorem state_post_bollards (s : State) (i : Instr) : (s.post i).bollards = s.bollards := rfl
@[simp] theorem state_post_regr (s : State) (i : Instr) : (s.post i).regr = s.regr := rfl
@[simp] theorem state_post_groups (s : State) (i : Instr) : (s.post i).groups = s.groups := rfl
@[simp] theorem state_stall_agenda (s : State) : (s.stall).agenda = s.agenda := rfl
@[simp] theorem state_stall_stepNo (s : State) : (s.stall).stepNo = s.stepNo := rfl
@[simp] theorem state_stall_ctxs (s : State) : (s.stall).ctxs = s.ctxs := rfl
@[simp] theorem state_stall_dies (s : State) : (s.stall).dies = s.dies := rfl
@[simp] theorem state_stall_parts (s : State) : (s.stall).parts = s.parts := rfl
@[simp] theorem state_stall_jobs (s : State) : (s.stall).jobs = s.jobs := rfl
@[simp] theorem state_stall_mem (s : State) : (s.stall).mem = s.mem := rfl
@[simp] theorem state_stall_poison (s : State) : (s.stall).poison = s.poison := rfl
@[simp] theorem state_stall_unprot (s : State) : (s.stall).unprot = s.unprot := rfl
@[simp] theorem state_stall_boot (s : State) : (s.stall).boot = s.boot := rfl
@[simp] theorem state_stall_phalt (s : State) : (s.stall).phalt = s.phalt := rfl
@[simp] theorem state_stall_errs (s : State) : (s.stall).errs = s.errs := rfl
@[simp] theorem state_stall_caps (s : State) : (s.stall).caps = s.caps := rfl
@[simp] theorem state_stall_portsDown (s : State) : (s.stall).portsDown = s.portsDown := rfl
@[simp] theorem state_stall_berths (s : State) : (s.stall).berths = s.berths := rfl
@[simp] theorem state_stall_waitQ (s : State) : (s.stall).waitQ = s.waitQ := rfl
@[simp] theorem state_stall_tasks (s : State) : (s.stall).tasks = s.tasks := rfl
@[simp] theorem state_stall_graphs (s : State) : (s.stall).graphs = s.graphs := rfl
@[simp] theorem state_stall_phases (s : State) : (s.stall).phases = s.phases := rfl
@[simp] theorem state_stall_bollards (s : State) : (s.stall).bollards = s.bollards := rfl
@[simp] theorem state_stall_regr (s : State) : (s.stall).regr = s.regr := rfl
@[simp] theorem state_stall_groups (s : State) : (s.stall).groups = s.groups := rfl
@[simp] theorem state_setNpc_agenda (s : State) (t : VA) : (s.setNpc t).agenda = s.agenda := rfl
@[simp] theorem state_setNpc_stepNo (s : State) (t : VA) : (s.setNpc t).stepNo = s.stepNo := rfl
@[simp] theorem state_setNpc_ctxs (s : State) (t : VA) : (s.setNpc t).ctxs = s.ctxs := rfl
@[simp] theorem state_setNpc_dies (s : State) (t : VA) : (s.setNpc t).dies = s.dies := rfl
@[simp] theorem state_setNpc_parts (s : State) (t : VA) : (s.setNpc t).parts = s.parts := rfl
@[simp] theorem state_setNpc_jobs (s : State) (t : VA) : (s.setNpc t).jobs = s.jobs := rfl
@[simp] theorem state_setNpc_mem (s : State) (t : VA) : (s.setNpc t).mem = s.mem := rfl
@[simp] theorem state_setNpc_poison (s : State) (t : VA) : (s.setNpc t).poison = s.poison := rfl
@[simp] theorem state_setNpc_unprot (s : State) (t : VA) : (s.setNpc t).unprot = s.unprot := rfl
@[simp] theorem state_setNpc_boot (s : State) (t : VA) : (s.setNpc t).boot = s.boot := rfl
@[simp] theorem state_setNpc_phalt (s : State) (t : VA) : (s.setNpc t).phalt = s.phalt := rfl
@[simp] theorem state_setNpc_errs (s : State) (t : VA) : (s.setNpc t).errs = s.errs := rfl
@[simp] theorem state_setNpc_caps (s : State) (t : VA) : (s.setNpc t).caps = s.caps := rfl
@[simp] theorem state_setNpc_portsDown (s : State) (t : VA) : (s.setNpc t).portsDown = s.portsDown := rfl
@[simp] theorem state_setNpc_berths (s : State) (t : VA) : (s.setNpc t).berths = s.berths := rfl
@[simp] theorem state_setNpc_waitQ (s : State) (t : VA) : (s.setNpc t).waitQ = s.waitQ := rfl
@[simp] theorem state_setNpc_tasks (s : State) (t : VA) : (s.setNpc t).tasks = s.tasks := rfl
@[simp] theorem state_setNpc_graphs (s : State) (t : VA) : (s.setNpc t).graphs = s.graphs := rfl
@[simp] theorem state_setNpc_phases (s : State) (t : VA) : (s.setNpc t).phases = s.phases := rfl
@[simp] theorem state_setNpc_bollards (s : State) (t : VA) : (s.setNpc t).bollards = s.bollards := rfl
@[simp] theorem state_setNpc_regr (s : State) (t : VA) : (s.setNpc t).regr = s.regr := rfl
@[simp] theorem state_setNpc_groups (s : State) (t : VA) : (s.setNpc t).groups = s.groups := rfl
@[simp] theorem state_logErr_agenda (s : State) (i : Nat) (e : ErrIn) : (s.logErr i e).agenda = s.agenda := rfl
@[simp] theorem state_logErr_stepNo (s : State) (i : Nat) (e : ErrIn) : (s.logErr i e).stepNo = s.stepNo := rfl
@[simp] theorem state_logErr_cur (s : State) (i : Nat) (e : ErrIn) : (s.logErr i e).cur = s.cur := rfl
@[simp] theorem state_logErr_ctxs (s : State) (i : Nat) (e : ErrIn) : (s.logErr i e).ctxs = s.ctxs := rfl
@[simp] theorem state_logErr_dies (s : State) (i : Nat) (e : ErrIn) : (s.logErr i e).dies = s.dies := rfl
@[simp] theorem state_logErr_parts (s : State) (i : Nat) (e : ErrIn) : (s.logErr i e).parts = s.parts := rfl
@[simp] theorem state_logErr_jobs (s : State) (i : Nat) (e : ErrIn) : (s.logErr i e).jobs = s.jobs := rfl
@[simp] theorem state_logErr_mem (s : State) (i : Nat) (e : ErrIn) : (s.logErr i e).mem = s.mem := rfl
@[simp] theorem state_logErr_poison (s : State) (i : Nat) (e : ErrIn) : (s.logErr i e).poison = s.poison := rfl
@[simp] theorem state_logErr_unprot (s : State) (i : Nat) (e : ErrIn) : (s.logErr i e).unprot = s.unprot := rfl
@[simp] theorem state_logErr_boot (s : State) (i : Nat) (e : ErrIn) : (s.logErr i e).boot = s.boot := rfl
@[simp] theorem state_logErr_phalt (s : State) (i : Nat) (e : ErrIn) : (s.logErr i e).phalt = s.phalt := rfl
@[simp] theorem state_logErr_caps (s : State) (i : Nat) (e : ErrIn) : (s.logErr i e).caps = s.caps := rfl
@[simp] theorem state_logErr_portsDown (s : State) (i : Nat) (e : ErrIn) : (s.logErr i e).portsDown = s.portsDown := rfl
@[simp] theorem state_logErr_berths (s : State) (i : Nat) (e : ErrIn) : (s.logErr i e).berths = s.berths := rfl
@[simp] theorem state_logErr_waitQ (s : State) (i : Nat) (e : ErrIn) : (s.logErr i e).waitQ = s.waitQ := rfl
@[simp] theorem state_logErr_tasks (s : State) (i : Nat) (e : ErrIn) : (s.logErr i e).tasks = s.tasks := rfl
@[simp] theorem state_logErr_graphs (s : State) (i : Nat) (e : ErrIn) : (s.logErr i e).graphs = s.graphs := rfl
@[simp] theorem state_logErr_phases (s : State) (i : Nat) (e : ErrIn) : (s.logErr i e).phases = s.phases := rfl
@[simp] theorem state_logErr_bollards (s : State) (i : Nat) (e : ErrIn) : (s.logErr i e).bollards = s.bollards := rfl
@[simp] theorem state_logErr_regr (s : State) (i : Nat) (e : ErrIn) : (s.logErr i e).regr = s.regr := rfl
@[simp] theorem state_logErr_groups (s : State) (i : Nat) (e : ErrIn) : (s.logErr i e).groups = s.groups := rfl

/-! ### Contexts and dies after an update -/

@[simp] theorem state_ctx_setCtx (s : State) (c : Nat) (x : Ctx) (d : Nat) :
    (s.setCtx c x).ctx d = if d = c then x else s.ctx d := tbl_get_put ..
@[simp] theorem state_ctx_updCtx (s : State) (c : Nat) (f : Ctx → Ctx) (d : Nat) :
    (s.updCtx c f).ctx d = if d = c then f (s.ctx c) else s.ctx d := tbl_get_put ..
@[simp] theorem state_ctx_updCx (s : State) (f : Ctx → Ctx) (d : Nat) :
    (s.updCx f).ctx d = if d = s.cur.ctx then f s.cx else s.ctx d := tbl_get_put ..
@[simp] theorem state_cx_updCx (s : State) (f : Ctx → Ctx) : (s.updCx f).cx = f s.cx := by
  simp [State.cx, State.updCx]
@[simp] theorem state_die_setDie (s : State) (c : Nat) (x : Die) (d : Nat) :
    (s.setDie c x).die d = if d = c then x else s.die d := tbl_get_put ..
@[simp] theorem state_die_updDie (s : State) (c : Nat) (f : Die → Die) (d : Nat) :
    (s.updDie c f).die d = if d = c then f (s.die c) else s.die d := tbl_get_put ..
@[simp] theorem state_die_updDx (s : State) (f : Die → Die) (d : Nat) :
    (s.updDx f).die d = if d = s.cur.die then f s.dx else s.die d := tbl_get_put ..
@[simp] theorem state_dx_updDx (s : State) (f : Die → Die) : (s.updDx f).dx = f s.dx := by
  simp [State.dx, State.updDx]
@[simp] theorem state_part_updPart (s : State) (p : Nat) (f : Part → Part) (q : Nat) :
    (s.updPart p f).part q = if q = p then f (s.part p) else s.part q := tbl_get_put ..
@[simp] theorem state_job_updJob (s : State) (j : BitVec 16) (f : Job → Job) (k : BitVec 16) :
    (s.updJob j f).job k = if k = j then f (s.job j) else s.job k := by
  simp only [State.job, State.updJob, tbl_get_put, BitVec.toNat_inj]
@[simp] theorem state_bank_logErr (s : State) (i : Nat) (e : ErrIn) (k : Nat) :
    (s.logErr i e).bank k = if k = i then (s.bank i).arrive e else s.bank k := tbl_get_put ..
@[simp] theorem state_memByte_setByte (s : State) (a : Nat) (v : Byte) (b : Nat) :
    (s.setByte a v).memByte b = if b = a then v else s.memByte b := tbl_get_set ..

@[simp] theorem state_ctx_updDie (s : State) (d : Nat) (f : Die → Die) (c : Nat) : (s.updDie d f).ctx c = s.ctx c := rfl
@[simp] theorem state_die_updCtx (s : State) (c : Nat) (f : Ctx → Ctx) (d : Nat) : (s.updCtx c f).die d = s.die d := rfl
@[simp] theorem state_cx_updDx (s : State) (f : Die → Die) : (s.updDx f).cx = s.cx := rfl
@[simp] theorem state_dx_updCx (s : State) (f : Ctx → Ctx) : (s.updCx f).dx = s.dx := rfl
@[simp] theorem state_memByte_updCtx (s : State) (c : Nat) (f : Ctx → Ctx) (a : Nat) : (s.updCtx c f).memByte a = s.memByte a := rfl
@[simp] theorem state_memByte_updCx (s : State) (f : Ctx → Ctx) (a : Nat) : (s.updCx f).memByte a = s.memByte a := rfl
@[simp] theorem state_memByte_updDie (s : State) (d : Nat) (f : Die → Die) (a : Nat) : (s.updDie d f).memByte a = s.memByte a := rfl
@[simp] theorem state_memByte_updDx (s : State) (f : Die → Die) (a : Nat) : (s.updDx f).memByte a = s.memByte a := rfl

/-! ### Scalar registers (R7, R96) -/

@[simp] theorem scal_getX_setX (r : Scal) (n m : Reg) (v : W64) :
    (r.setX n v).getX m = if m = 0 then 0 else if m = n then v else r.getX m := by
  unfold Scal.setX Scal.getX
  by_cases hm : m = 0
  · rw [if_pos hm, if_pos hm]
  · rw [if_neg hm, if_neg hm, if_neg hm]
    by_cases hn : n = 0
    · subst hn; rw [if_neg hm]; rfl
    · by_cases h : m = n
      · subst h; simp only [if_neg hn, if_true]; exact Vector.getElem_set_self _
      · have h2 : n.toNat ≠ m.toNat := fun e => h (BitVec.toNat_inj.mp e.symm)
        simp only [if_neg hn, if_neg h]
        exact Vector.getElem_set_ne _ _ h2

@[simp] theorem scal_getQ_setQ (r : Scal) (n m : QIdx) (v : Bool) :
    (r.setQ n v).getQ m = if m = 0 then true else if m = n then v else r.getQ m := by
  have hq (k : QIdx) (hk : k ≠ 0) : (k == 0) = false := beq_eq_false_iff_ne.mpr hk
  unfold Scal.setQ Scal.getQ
  by_cases hm : m = 0
  · subst hm; rfl
  · rw [if_neg hm, hq m hm, Bool.false_or, Bool.false_or]
    by_cases hn : n = 0
    · subst hn; rw [if_neg hm]; rfl
    · by_cases h : m = n
      · subst h; simp only [if_neg hn, if_true]; exact Vector.getElem_set_self _
      · have h2 : n.toNat ≠ m.toNat := fun e => h (BitVec.toNat_inj.mp e.symm)
        simp only [if_neg hn, if_neg h]
        exact Vector.getElem_set_ne _ _ h2

@[simp] theorem scal_getQ_setX (r : Scal) (n : Reg) (v : W64) (q : QIdx) : (r.setX n v).getQ q = r.getQ q := by
  unfold Scal.setX; split <;> rfl
@[simp] theorem scal_getX_setQ (r : Scal) (n : QIdx) (v : Bool) (m : Reg) : (r.setQ n v).getX m = r.getX m := by
  unfold Scal.setQ; split <;> rfl
@[simp] theorem scal_setX_zero (r : Scal) (v : W64) : r.setX 0 v = r := by simp [Scal.setX]
@[simp] theorem scal_getX_zero (r : Scal) : r.getX 0 = 0 := by simp [Scal.getX]
@[simp] theorem scal_getQ_zero (r : Scal) : r.getQ 0 = true := by simp [Scal.getQ]

end Sys2Proof.Laws
end

