-- ==== Sys2Proof/Laws/Memory.lean ====
section
/-! SUPPORT. What the memory operations do: which bytes they change, and that they keep the canonical form (log 1). -/

namespace Sys2Proof.Laws

open Sys2Proof Sys2Proof.Machine

/-- The memory after a state is that of before, some bytes written. -/
def SameForm (s t : State) : Prop := Memory.wf s.mem = true → Memory.wf t.mem = true

theorem sameForm_of_eq {s t : State} (h : t.mem = s.mem) : SameForm s t := fun w => h ▸ w
theorem sameForm_refl (s : State) : SameForm s s := id
theorem sameForm_trans {s t u : State} (h : SameForm s t) (k : SameForm t u) : SameForm s u := k ∘ h

/-- An update keeps the form if each step of a fold does. -/
theorem sameForm_foldl {α : Type} (l : List α) (f : State → α → State) (h : ∀ t a, SameForm t (f t a)) (s : State) :
    SameForm s (l.foldl f s) := by
  induction l generalizing s with
  | nil => exact sameForm_refl s
  | cons a l ih => exact sameForm_trans (h s a) (ih _)

theorem memForm_setByte (s : State) (a : Nat) (v : Byte) : SameForm s (s.setByte a v) := tbl_wfFrom_set

theorem memForm_putByte (s : State) (a : Nat) (v : Byte) : SameForm s (s.putByte a v) := by
  unfold State.putByte
  split
  · exact sameForm_refl s
  · exact memForm_setByte s a v

theorem memForm_memWr (n : Nat) (s : State) (a v : Nat) : SameForm s (s.memWr a n v) := by
  induction n generalizing s a v with
  | zero => exact sameForm_refl s
  | succ n ih => exact sameForm_trans (memForm_putByte s a _) (ih _ _ _)

theorem memForm_homeWr (s : State) (a n v : Nat) : SameForm s (s.homeWr a n v) := memForm_memWr n s a v

theorem memForm_devWr (s : State) (j : BitVec 16) (a n v : Nat) : SameForm s (s.devWr j a n v) := by
  unfold State.devWr
  split
  · split
    · exact sameForm_of_eq rfl
    · exact sameForm_refl s
  · exact memForm_memWr n s a v

theorem memForm_reset : Memory.wf State.reset.mem = true := rfl

/-- Storing a byte changes memory alone. -/
theorem putByte_eq (s : State) (a : Nat) (v : Byte) : s.putByte a v = { s with mem := (s.putByte a v).mem } := by
  unfold State.putByte; split <;> rfl

/-- Writing memory changes memory alone. -/
theorem memWr_eq (n : Nat) (s : State) (a v : Nat) : s.memWr a n v = { s with mem := (s.memWr a n v).mem } := by
  induction n generalizing s a v with
  | zero => rfl
  | succ n ih => rw [State.memWr, ih, putByte_eq]

/-- A byte of memory after a write outside the doorbell window and the ports whose link is down. -/
theorem memByte_memWr (n : Nat) : ∀ (s : State) (a v b : Nat), (∀ k, k < n → s.noStore (a + k) = false) →
    (s.memWr a n v).memByte b = if a ≤ b ∧ b < a + n then BitVec.ofNat 8 (v / 256 ^ (b - a)) else s.memByte b := by
  induction n with
  | zero => intro s a v b _; rw [State.memWr, if_neg (by omega)]
  | succ n ih =>
    intro s a v b h
    have h0 : s.noStore a = false := h 0 (by omega)
    rw [State.memWr, State.putByte, h0, if_neg (by decide), ih _ (a + 1) (v / 256) b (fun k hk => by
      have := h (k + 1) (by omega)
      rw [show a + 1 + k = a + (k + 1) by omega]; exact this), state_memByte_setByte]
    by_cases hb : b = a
    · subst hb; rw [if_neg (by omega), if_pos rfl, if_pos (by omega), Nat.sub_self, Nat.pow_zero, Nat.div_one]
    · by_cases hr : a + 1 ≤ b ∧ b < a + 1 + n
      · rw [if_pos hr, if_pos (by omega), Nat.div_div_eq_div_mul, show b - a = b - (a + 1) + 1 by omega, Nat.pow_succ, Nat.mul_comm]
      · rw [if_neg hr, if_neg hb, if_neg (by omega)]

/-- A byte of SLM after a store (R111). -/
theorem slm_get_slmWr (n : Nat) : ∀ (t : Tbl Byte) (a v b : Nat),
    (slmWr t a n v).get 0 b = if a ≤ b ∧ b < a + n then BitVec.ofNat 8 (v / 256 ^ (b - a)) else t.get 0 b := by
  induction n with
  | zero => intro t a v b; rw [slmWr, if_neg (by omega)]
  | succ n ih =>
    intro t a v b
    rw [slmWr, ih, tbl_get_set]
    by_cases hb : b = a
    · subst hb; rw [if_neg (by omega), if_pos rfl, if_pos (by omega), Nat.sub_self, Nat.pow_zero, Nat.div_one]
    · by_cases hr : a + 1 ≤ b ∧ b < a + 1 + n
      · rw [if_pos hr, if_pos (by omega), Nat.div_div_eq_div_mul, show b - a = b - (a + 1) + 1 by omega, Nat.pow_succ, Nat.mul_comm]
      · rw [if_neg hr, if_neg hb, if_neg (by omega)]

/-- Bytes read back from memory: byte k of the number is the byte at k. -/
theorem homeRd_byte (n : Nat) : ∀ (s : State) (a k : Nat), k < n → s.homeRd a n / 256 ^ k % 256 = (s.homeByte (a + k)).toNat := by
  induction n with
  | zero => intro s a k h; omega
  | succ n ih =>
    intro s a k h
    have hb := (s.homeByte a).isLt
    cases k with
    | zero =>
      show ((s.homeByte a).toNat + 256 * s.homeRd (a + 1) n) / 1 % 256 = (s.homeByte a).toNat
      omega
    | succ k =>
      have hd : ((s.homeByte a).toNat + 256 * s.homeRd (a + 1) n) / 256 = s.homeRd (a + 1) n := by omega
      rw [State.homeRd, show (256 : Nat) ^ (k + 1) = 256 * 256 ^ k by rw [Nat.pow_succ, Nat.mul_comm], ← Nat.div_div_eq_div_mul, hd,
        ih _ _ _ (by omega), show a + 1 + k = a + (k + 1) by omega]

end Sys2Proof.Laws
end

