-- ==== Sys2Proof/Laws/Ops.lean ====
section
/-! SUPPORT. What the shared operations do, said once: reads of memory beside a write, walks, translation, and traps. -/

namespace Sys2Proof.Laws

open Sys2Proof.Machine

/-- Two changes of one die are one. -/
theorem updDie_updDie (s : State) (d : Nat) (f g : Die → Die) : (s.updDie d f).updDie d g = s.updDie d fun y => g (f y) := by
  have h : (s.setDie d (f (s.die d))).die d = f (s.die d) := (tbl_get_put ..).trans (if_pos rfl)
  show State.setDie (s.setDie d (f (s.die d))) d (g ((s.setDie d (f (s.die d))).die d)) = s.setDie d (g (f (s.die d)))
  rw [h]; simp only [State.setDie, tbl_put_put]

/-- A die that is written as it stands holds as if it were not, for every later change of it. -/
theorem updDie_repair_nil (s : State) (d : Nat) (f : Die → Die) : (s.repairAll d []).updDie d f = s.updDie d f :=
  updDie_updDie s d (fun y => y.repair []) f

/-- Bytes read at home depend on those bytes alone. -/
theorem homeRd_congr {s t : State} (n : Nat) : ∀ a, (∀ k, k < n → t.memByte (a + k) = s.memByte (a + k)) → t.homeRd a n = s.homeRd a n := by
  induction n with
  | zero => intro a _; rfl
  | succ n ih =>
    intro a h
    have h0 := h 0 (by omega)
    rw [Nat.add_zero] at h0
    rw [State.homeRd, State.homeRd, ih (a + 1) (fun k hk => by have := h (k + 1) (by omega); rwa [show a + 1 + k = a + (k + 1) by omega]),
      State.homeByte, State.homeByte, h0]

/-- A write changes no byte outside its range. -/
theorem memByte_memWr_off (n : Nat) : ∀ (s : State) (a v b : Nat), (b < a ∨ a + n ≤ b) → (s.memWr a n v).memByte b = s.memByte b := by
  induction n with
  | zero => intro s a v b _; rfl
  | succ n ih =>
    intro s a v b h
    rw [State.memWr, ih _ _ _ _ (by omega)]
    unfold State.putByte
    split
    · rfl
    · exact (tbl_get_set ..).trans (if_neg (by omega))

/-- Bytes read beside a write are as before it. -/
theorem homeRd_memWr_off (s : State) (a n v b m : Nat) (h : b + m ≤ a ∨ a + n ≤ b) : (s.memWr a n v).homeRd b m = s.homeRd b m :=
  homeRd_congr m b fun k hk => memByte_memWr_off n s a v (b + k) (by omega)

theorem job_memWr (s : State) (a n v : Nat) (j : BitVec 16) : (s.memWr a n v).job j = s.job j := by rw [memWr_eq]; rfl
theorem jobXlat_memWr (s : State) (a n v : Nat) (j : BitVec 16) : (s.memWr a n v).jobXlat j = s.jobXlat j := by
  rw [State.jobXlat, job_memWr]; rfl

/-- A walk that meets a leaf of level 1 in its second table: the page of the first GiB, which it maps to itself. -/
theorem walk_low (s : State) (j : BitVec 16) (va t : Nat) (hv : va < 2 ^ 30) (ht : t < 2 ^ 40) (ha : t % 2 ^ 16 = 0)
    (h0 : s.homeRd 0 8 = t + 1) (h1 : s.homeRd t 8 = 0x1F) : s.walk j va 4 0 0 = .ok ⟨j, 1, 0, 0, false, true, true, true⟩ := by
  have p0 : ptIndex va 0 = 0 := by unfold ptIndex; simp; omega
  have p1 : ptIndex va 1 = 0 := by unfold ptIndex; simp; omega
  have hp : (t + 1) / 2 ^ 12 % 2 ^ 40 * 2 ^ 12 = t := by omega
  have hr : s.reserved t = false := by unfold State.reserved bellBase; rw [if_pos (by omega)]
  have hq : va / 2 ^ pageBits 1 = 0 := by unfold pageBits; simp; omega
  have b0 : (t + 1).testBit 0 = true := by rw [Nat.testBit_zero]; simp; omega
  have b1 : (t + 1).testBit 1 = false := by rw [Nat.testBit_succ, Nat.testBit_zero]; simp; omega
  have z1 : (t + 1) / 2 ^ 52 = 0 := by omega
  have z2 : (t + 1) / 2 ^ 6 % 2 ^ 6 = 0 := by omega
  have z3 : (t + 1) / 4 % 16 = 0 := by omega
  have ta : t % tableAlign 0 = 0 := by unfold tableAlign; simpa using ha
  rw [State.walk]
  simp only [p0, Nat.mul_zero, Nat.add_zero, h0, b0, b1, z1, z2, z3, hp, hr, ta]
  simp only [State.walk, p1, Nat.mul_zero, Nat.add_zero, h1, hq]
  rfl

/-- A job whose first GiB is one such page: an address in it translates to itself, for every access. -/
theorem translateCold_low (s : State) (j : BitVec 16) (k : AccK) (va t : Nat) (hv : va < 2 ^ 30) (ht : t < 2 ^ 40) (ha : t % 2 ^ 16 = 0)
    (hx : (s.job j).xroot = 0) (h0 : s.homeRd 0 8 = t + 1) (h1 : s.homeRd t 8 = 0x1F) : s.translateCold (s.jobXlat j) k va = .ok va := by
  have w := walk_low s j va t hv ht ha h0 h1
  have hr : s.reserved va = false := by unfold State.reserved bellBase; rw [if_pos (by omega)]
  have hb : isBell va = false := by unfold isBell bellBase; simp; omega
  have hp : TlbE.pa ⟨j, 1, 0, 0, false, true, true, true⟩ va = va := by unfold TlbE.pa pageBits; simp; omega
  simp only [State.translateCold, State.translate, State.leaf, State.jobXlat, hx, List.find?_nil]
  rw [show (0 : W64).toNat = 0 from rfl, w]
  simp only [State.leafCheck, hp, hr, hb]
  cases k <;> rfl

/-- The same beside any write that spares the two entries. -/
theorem translateCold_low_memWr (s : State) (j : BitVec 16) (k : AccK) (va t a n v : Nat) (hv : va < 2 ^ 30) (ht : t < 2 ^ 40)
    (ha : t % 2 ^ 16 = 0) (hx : (s.job j).xroot = 0) (h0 : s.homeRd 0 8 = t + 1) (h1 : s.homeRd t 8 = 0x1F) (w0 : 8 ≤ a) (w1 : t + 8 ≤ a ∨ a + n ≤ t) :
    (s.memWr a n v).translateCold (s.jobXlat j) k va = .ok va := by
  rw [← jobXlat_memWr s a n v j]
  exact translateCold_low _ j k va t hv ht ha (by rw [job_memWr]; exact hx) (by rw [homeRd_memWr_off _ _ _ _ _ _ (by omega)]; exact h0)
    (by rw [homeRd_memWr_off _ _ _ _ _ _ (by omega)]; exact h1)

end Sys2Proof.Laws
end

