-- ==== Sys2Proof/Laws/PerInstr.lean ====
section
/-! SUPPORT. For every instruction: the slots it may stand in (R62, R64). -/

namespace Sys2Proof.Laws

/-- An instruction stands in no slot (a step of the machine, or a packet), in V0 and V1, or in one slot alone (R62, R64). -/
def SlotOf.Statement (i : Instr) : Prop := slotsOf i = [] ∨ slotsOf i = [1, 2] ∨ ∃ k, k < 8 ∧ slotsOf i = [k]

theorem SlotOf.noOperation : SlotOf.Statement (Instr.noOperation) := Or.inl rfl
theorem SlotOf.add (xd xa xb : Reg) : SlotOf.Statement (Instr.add xd xa xb) := Or.inr (Or.inr ⟨0, by decide, rfl⟩)
theorem SlotOf.sub (xd xa xb : Reg) : SlotOf.Statement (Instr.sub xd xa xb) := Or.inr (Or.inr ⟨0, by decide, rfl⟩)
theorem SlotOf.mul (xd xa xb : Reg) : SlotOf.Statement (Instr.mul xd xa xb) := Or.inr (Or.inr ⟨0, by decide, rfl⟩)
theorem SlotOf.mulh (xd xa xb : Reg) : SlotOf.Statement (Instr.mulh xd xa xb) := Or.inr (Or.inr ⟨0, by decide, rfl⟩)
theorem SlotOf.mulhn (xd xa xb : Reg) : SlotOf.Statement (Instr.mulhn xd xa xb) := Or.inr (Or.inr ⟨0, by decide, rfl⟩)
theorem SlotOf.div (xd xa xb : Reg) : SlotOf.Statement (Instr.div xd xa xb) := Or.inr (Or.inr ⟨0, by decide, rfl⟩)
theorem SlotOf.divn (xd xa xb : Reg) : SlotOf.Statement (Instr.divn xd xa xb) := Or.inr (Or.inr ⟨0, by decide, rfl⟩)
theorem SlotOf.rem (xd xa xb : Reg) : SlotOf.Statement (Instr.rem xd xa xb) := Or.inr (Or.inr ⟨0, by decide, rfl⟩)
theorem SlotOf.remn (xd xa xb : Reg) : SlotOf.Statement (Instr.remn xd xa xb) := Or.inr (Or.inr ⟨0, by decide, rfl⟩)
theorem SlotOf.and (xd xa xb : Reg) : SlotOf.Statement (Instr.and xd xa xb) := Or.inr (Or.inr ⟨0, by decide, rfl⟩)
theorem SlotOf.or (xd xa xb : Reg) : SlotOf.Statement (Instr.or xd xa xb) := Or.inr (Or.inr ⟨0, by decide, rfl⟩)
theorem SlotOf.xor (xd xa xb : Reg) : SlotOf.Statement (Instr.xor xd xa xb) := Or.inr (Or.inr ⟨0, by decide, rfl⟩)
theorem SlotOf.shl (xd xa xb : Reg) : SlotOf.Statement (Instr.shl xd xa xb) := Or.inr (Or.inr ⟨0, by decide, rfl⟩)
theorem SlotOf.shr (xd xa xb : Reg) : SlotOf.Statement (Instr.shr xd xa xb) := Or.inr (Or.inr ⟨0, by decide, rfl⟩)
theorem SlotOf.sra (xd xa xb : Reg) : SlotOf.Statement (Instr.sra xd xa xb) := Or.inr (Or.inr ⟨0, by decide, rfl⟩)
theorem SlotOf.min (xd xa xb : Reg) : SlotOf.Statement (Instr.min xd xa xb) := Or.inr (Or.inr ⟨0, by decide, rfl⟩)
theorem SlotOf.max (xd xa xb : Reg) : SlotOf.Statement (Instr.max xd xa xb) := Or.inr (Or.inr ⟨0, by decide, rfl⟩)
theorem SlotOf.minn (xd xa xb : Reg) : SlotOf.Statement (Instr.minn xd xa xb) := Or.inr (Or.inr ⟨0, by decide, rfl⟩)
theorem SlotOf.maxn (xd xa xb : Reg) : SlotOf.Statement (Instr.maxn xd xa xb) := Or.inr (Or.inr ⟨0, by decide, rfl⟩)
theorem SlotOf.clz (xd xa : Reg) : SlotOf.Statement (Instr.clz xd xa) := Or.inr (Or.inr ⟨0, by decide, rfl⟩)
theorem SlotOf.popc (xd xa : Reg) : SlotOf.Statement (Instr.popc xd xa) := Or.inr (Or.inr ⟨0, by decide, rfl⟩)
theorem SlotOf.addi (xd xa : Reg) (imm : BitVec 32) : SlotOf.Statement (Instr.addi xd xa imm) := Or.inr (Or.inr ⟨0, by decide, rfl⟩)
theorem SlotOf.andi (xd xa : Reg) (imm : BitVec 32) : SlotOf.Statement (Instr.andi xd xa imm) := Or.inr (Or.inr ⟨0, by decide, rfl⟩)
theorem SlotOf.ori (xd xa : Reg) (imm : BitVec 32) : SlotOf.Statement (Instr.ori xd xa imm) := Or.inr (Or.inr ⟨0, by decide, rfl⟩)
theorem SlotOf.xori (xd xa : Reg) (imm : BitVec 32) : SlotOf.Statement (Instr.xori xd xa imm) := Or.inr (Or.inr ⟨0, by decide, rfl⟩)
theorem SlotOf.shiShl (xd xa : Reg) (imm : BitVec 32) : SlotOf.Statement (Instr.shiShl xd xa imm) := Or.inr (Or.inr ⟨0, by decide, rfl⟩)
theorem SlotOf.shiShr (xd xa : Reg) (imm : BitVec 32) : SlotOf.Statement (Instr.shiShr xd xa imm) := Or.inr (Or.inr ⟨0, by decide, rfl⟩)
theorem SlotOf.shiSra (xd xa : Reg) (imm : BitVec 32) : SlotOf.Statement (Instr.shiSra xd xa imm) := Or.inr (Or.inr ⟨0, by decide, rfl⟩)
theorem SlotOf.li (xd : Reg) (imm : BitVec 50) : SlotOf.Statement (Instr.li xd imm) := Or.inr (Or.inr ⟨0, by decide, rfl⟩)
theorem SlotOf.lih (xd : Reg) (imm : BitVec 32) : SlotOf.Statement (Instr.lih xd imm) := Or.inr (Or.inr ⟨0, by decide, rfl⟩)
theorem SlotOf.cmp (qd : QIdx) (c : Cond) (xa xb : Reg) : SlotOf.Statement (Instr.cmp qd c xa xb) := Or.inr (Or.inr ⟨0, by decide, rfl⟩)
theorem SlotOf.cmpi (qd : QIdx) (c : Cond) (xa : Reg) (imm : BitVec 32) : SlotOf.Statement (Instr.cmpi qd c xa imm) := Or.inr (Or.inr ⟨0, by decide, rfl⟩)
theorem SlotOf.sel (xd : Reg) (q : QIdx) (neg : Bool) (xa xb : Reg) : SlotOf.Statement (Instr.sel xd q neg xa xb) := Or.inr (Or.inr ⟨0, by decide, rfl⟩)
theorem SlotOf.movqGet (xd : Reg) (qa : QIdx) : SlotOf.Statement (Instr.movqGet xd qa) := Or.inr (Or.inr ⟨0, by decide, rfl⟩)
theorem SlotOf.movqSet (qd : QIdx) (xa : Reg) : SlotOf.Statement (Instr.movqSet qd xa) := Or.inr (Or.inr ⟨0, by decide, rfl⟩)
theorem SlotOf.movqGetall (xd : Reg) : SlotOf.Statement (Instr.movqGetall xd) := Or.inr (Or.inr ⟨0, by decide, rfl⟩)
theorem SlotOf.movqSetall (xa : Reg) : SlotOf.Statement (Instr.movqSetall xa) := Or.inr (Or.inr ⟨0, by decide, rfl⟩)
theorem SlotOf.qop (f : QFn) (qd qa qb : QIdx) : SlotOf.Statement (Instr.qop f qd qa qb) := Or.inr (Or.inr ⟨0, by decide, rfl⟩)
theorem SlotOf.fadd (rm : Rnd) (xd xa xb : Reg) : SlotOf.Statement (Instr.fadd rm xd xa xb) := Or.inr (Or.inr ⟨0, by decide, rfl⟩)
theorem SlotOf.fsub (rm : Rnd) (xd xa xb : Reg) : SlotOf.Statement (Instr.fsub rm xd xa xb) := Or.inr (Or.inr ⟨0, by decide, rfl⟩)
theorem SlotOf.fmul (rm : Rnd) (xd xa xb : Reg) : SlotOf.Statement (Instr.fmul rm xd xa xb) := Or.inr (Or.inr ⟨0, by decide, rfl⟩)
theorem SlotOf.ffma (sg : FmaSign) (rm : Rnd) (xd xa xb xc : Reg) : SlotOf.Statement (Instr.ffma sg rm xd xa xb xc) := Or.inr (Or.inr ⟨0, by decide, rfl⟩)
theorem SlotOf.fcmp (r : FRel) (qd : QIdx) (xa xb : Reg) : SlotOf.Statement (Instr.fcmp r qd xa xb) := Or.inr (Or.inr ⟨0, by decide, rfl⟩)
theorem SlotOf.fcvt (k : FCvt) (sat : Bool) (rm : Rnd) (xd xa : Reg) : SlotOf.Statement (Instr.fcvt k sat rm xd xa) := Or.inr (Or.inr ⟨0, by decide, rfl⟩)
theorem SlotOf.lds (sz : MSize) (sx : Bool) (xd xa : Reg) (imm : BitVec 32) : SlotOf.Statement (Instr.lds sz sx xd xa imm) := Or.inr (Or.inr ⟨0, by decide, rfl⟩)
theorem SlotOf.sts (sz : MSize) (xs xa : Reg) (imm : BitVec 32) : SlotOf.Statement (Instr.sts sz xs xa imm) := Or.inr (Or.inr ⟨0, by decide, rfl⟩)
theorem SlotOf.ldg (sz : MSize) (sx dev : Bool) (xd xa : Reg) (imm : BitVec 32) : SlotOf.Statement (Instr.ldg sz sx dev xd xa imm) := Or.inr (Or.inr ⟨0, by decide, rfl⟩)
theorem SlotOf.stg (sz : MSize) (dev : Bool) (xs xa : Reg) (imm : BitVec 32) : SlotOf.Statement (Instr.stg sz dev xs xa imm) := Or.inr (Or.inr ⟨0, by decide, rfl⟩)
theorem SlotOf.amog (op : AOp) (four : Bool) (xd xa xb xc : Reg) : SlotOf.Statement (Instr.amog op four xd xa xb xc) := Or.inr (Or.inr ⟨0, by decide, rfl⟩)
theorem SlotOf.globalLoadReturn (ctx idx : Nat) : SlotOf.Statement (Instr.globalLoadReturn ctx idx) := Or.inl rfl
theorem SlotOf.br (c : Cond) (xa xb : Reg) (off : BitVec 30) : SlotOf.Statement (Instr.br c xa xb off) := Or.inr (Or.inr ⟨0, by decide, rfl⟩)
theorem SlotOf.brq (q : QIdx) (neg : Bool) (off : BitVec 30) : SlotOf.Statement (Instr.brq q neg off) := Or.inr (Or.inr ⟨0, by decide, rfl⟩)
theorem SlotOf.call (xd : Reg) (off : BitVec 30) : SlotOf.Statement (Instr.call xd off) := Or.inr (Or.inr ⟨0, by decide, rfl⟩)
theorem SlotOf.callR (xd xa : Reg) : SlotOf.Statement (Instr.callR xd xa) := Or.inr (Or.inr ⟨0, by decide, rfl⟩)
theorem SlotOf.jmp (off : BitVec 30) : SlotOf.Statement (Instr.jmp off) := Or.inr (Or.inr ⟨0, by decide, rfl⟩)
theorem SlotOf.jmpR (xa : Reg) : SlotOf.Statement (Instr.jmpR xa) := Or.inr (Or.inr ⟨0, by decide, rfl⟩)
theorem SlotOf.ret (xa : Reg) : SlotOf.Statement (Instr.ret xa) := Or.inr (Or.inr ⟨0, by decide, rfl⟩)
theorem SlotOf.loop (xa : Reg) (off : BitVec 30) : SlotOf.Statement (Instr.loop xa off) := Or.inr (Or.inr ⟨0, by decide, rfl⟩)
theorem SlotOf.exit (code : BitVec 16) : SlotOf.Statement (Instr.exit code) := Or.inr (Or.inr ⟨0, by decide, rfl⟩)
theorem SlotOf.treePacketArrival (ctx die : Nat) : SlotOf.Statement (Instr.treePacketArrival ctx die) := Or.inl rfl
theorem SlotOf.dieBundleIssue (die : Nat) : SlotOf.Statement (Instr.dieBundleIssue die) := Or.inl rfl
theorem SlotOf.creditReturn (ctx die : Nat) : SlotOf.Statement (Instr.creditReturn ctx die) := Or.inl rfl
theorem SlotOf.storePerformed (a : Agent) (idx : Nat) : SlotOf.Statement (Instr.storePerformed a idx) := Or.inl rfl
theorem SlotOf.vectorResultWrite (die idx : Nat) : SlotOf.Statement (Instr.vectorResultWrite die idx) := Or.inl rfl
theorem SlotOf.vadd (a : V2) : SlotOf.Statement (Instr.vadd a) := Or.inr (Or.inl rfl)
theorem SlotOf.vsub (a : V2) : SlotOf.Statement (Instr.vsub a) := Or.inr (Or.inl rfl)
theorem SlotOf.vmul (a : V2) : SlotOf.Statement (Instr.vmul a) := Or.inr (Or.inl rfl)
theorem SlotOf.vmulh (a : V2) : SlotOf.Statement (Instr.vmulh a) := Or.inr (Or.inl rfl)
theorem SlotOf.vdiv (a : V2) : SlotOf.Statement (Instr.vdiv a) := Or.inr (Or.inl rfl)
theorem SlotOf.vmin (a : V2) : SlotOf.Statement (Instr.vmin a) := Or.inr (Or.inl rfl)
theorem SlotOf.vmax (a : V2) : SlotOf.Statement (Instr.vmax a) := Or.inr (Or.inl rfl)
theorem SlotOf.vfma (a : V3) : SlotOf.Statement (Instr.vfma a) := Or.inr (Or.inl rfl)
theorem SlotOf.vfms (a : V3) : SlotOf.Statement (Instr.vfms a) := Or.inr (Or.inl rfl)
theorem SlotOf.vfnma (a : V3) : SlotOf.Statement (Instr.vfnma a) := Or.inr (Or.inl rfl)
theorem SlotOf.vadds (a : V2) : SlotOf.Statement (Instr.vadds a) := Or.inr (Or.inl rfl)
theorem SlotOf.vsubs (a : V2) : SlotOf.Statement (Instr.vsubs a) := Or.inr (Or.inl rfl)
theorem SlotOf.vabs (a : V1) : SlotOf.Statement (Instr.vabs a) := Or.inr (Or.inl rfl)
theorem SlotOf.vneg (a : V1) : SlotOf.Statement (Instr.vneg a) := Or.inr (Or.inl rfl)
theorem SlotOf.vmov (a : V1) : SlotOf.Statement (Instr.vmov a) := Or.inr (Or.inl rfl)
theorem SlotOf.vand (a : V2) : SlotOf.Statement (Instr.vand a) := Or.inr (Or.inl rfl)
theorem SlotOf.vor (a : V2) : SlotOf.Statement (Instr.vor a) := Or.inr (Or.inl rfl)
theorem SlotOf.vxor (a : V2) : SlotOf.Statement (Instr.vxor a) := Or.inr (Or.inl rfl)
theorem SlotOf.vandn (a : V2) : SlotOf.Statement (Instr.vandn a) := Or.inr (Or.inl rfl)
theorem SlotOf.vshl (a : V2) : SlotOf.Statement (Instr.vshl a) := Or.inr (Or.inl rfl)
theorem SlotOf.vshr (a : V2) : SlotOf.Statement (Instr.vshr a) := Or.inr (Or.inl rfl)
theorem SlotOf.vclz (a : V1) : SlotOf.Statement (Instr.vclz a) := Or.inr (Or.inl rfl)
theorem SlotOf.vpopc (a : V1) : SlotOf.Statement (Instr.vpopc a) := Or.inr (Or.inl rfl)
theorem SlotOf.vcmp (a : VCmpA) : SlotOf.Statement (Instr.vcmp a) := Or.inr (Or.inl rfl)
theorem SlotOf.vsel (a : VSelA) : SlotOf.Statement (Instr.vsel a) := Or.inr (Or.inl rfl)
theorem SlotOf.vcvt (a : VCvtA) : SlotOf.Statement (Instr.vcvt a) := Or.inr (Or.inl rfl)
theorem SlotOf.vrcp (a : V1) : SlotOf.Statement (Instr.vrcp a) := Or.inr (Or.inl rfl)
theorem SlotOf.vsqrt (a : V1) : SlotOf.Statement (Instr.vsqrt a) := Or.inr (Or.inl rfl)
theorem SlotOf.vrsq (a : V1) : SlotOf.Statement (Instr.vrsq a) := Or.inr (Or.inl rfl)
theorem SlotOf.vexp2 (a : V1) : SlotOf.Statement (Instr.vexp2 a) := Or.inr (Or.inl rfl)
theorem SlotOf.vlog2 (a : V1) : SlotOf.Statement (Instr.vlog2 a) := Or.inr (Or.inl rfl)
theorem SlotOf.vtanh (a : V1) : SlotOf.Statement (Instr.vtanh a) := Or.inr (Or.inl rfl)
theorem SlotOf.vshuf (a : V2) : SlotOf.Statement (Instr.vshuf a) := Or.inr (Or.inl rfl)
theorem SlotOf.vrotr (a : VAxA) : SlotOf.Statement (Instr.vrotr a) := Or.inr (Or.inl rfl)
theorem SlotOf.vrotc (a : VAxA) : SlotOf.Statement (Instr.vrotc a) := Or.inr (Or.inl rfl)
theorem SlotOf.vbcr (a : VAxA) : SlotOf.Statement (Instr.vbcr a) := Or.inr (Or.inl rfl)
theorem SlotOf.vbcc (a : VAxA) : SlotOf.Statement (Instr.vbcc a) := Or.inr (Or.inl rfl)
theorem SlotOf.vredr (a : VRedA) : SlotOf.Statement (Instr.vredr a) := Or.inr (Or.inl rfl)
theorem SlotOf.vredc (a : VRedA) : SlotOf.Statement (Instr.vredc a) := Or.inr (Or.inl rfl)
theorem SlotOf.vidx (a : VIdxA) : SlotOf.Statement (Instr.vidx a) := Or.inr (Or.inl rfl)
theorem SlotOf.pand (a : P2) : SlotOf.Statement (Instr.pand a) := Or.inr (Or.inl rfl)
theorem SlotOf.por (a : P2) : SlotOf.Statement (Instr.por a) := Or.inr (Or.inl rfl)
theorem SlotOf.pxor (a : P2) : SlotOf.Statement (Instr.pxor a) := Or.inr (Or.inl rfl)
theorem SlotOf.pnot (a : P1) : SlotOf.Statement (Instr.pnot a) := Or.inr (Or.inl rfl)
theorem SlotOf.vladd (a : VLaddA) : SlotOf.Statement (Instr.vladd a) := Or.inr (Or.inl rfl)
theorem SlotOf.vlrnd (a : VLrndA) : SlotOf.Statement (Instr.vlrnd a) := Or.inr (Or.inl rfl)
theorem SlotOf.vlclr (pg : PIdx) (vd : BitVec 9) : SlotOf.Statement (Instr.vlclr pg vd) := Or.inr (Or.inl rfl)
theorem SlotOf.vcond (a : VCondA) : SlotOf.Statement (Instr.vcond a) := Or.inr (Or.inl rfl)
theorem SlotOf.vview (vw : BitVec 3) (xa : Reg) : SlotOf.Statement (Instr.vview vw xa) := Or.inr (Or.inl rfl)
theorem SlotOf.mlds (a : MldsA) : SlotOf.Statement (Instr.mlds a) := Or.inr (Or.inr ⟨3, by decide, rfl⟩)
theorem SlotOf.mldsComplete (die : Nat) : SlotOf.Statement (Instr.mldsComplete die) := Or.inl rfl
theorem SlotOf.mswap : SlotOf.Statement (Instr.mswap) := Or.inr (Or.inr ⟨3, by decide, rfl⟩)
theorem SlotOf.mzero : SlotOf.Statement (Instr.mzero) := Or.inr (Or.inr ⟨3, by decide, rfl⟩)
theorem SlotOf.mmul (a : MmulA) : SlotOf.Statement (Instr.mmul a) := Or.inr (Or.inr ⟨3, by decide, rfl⟩)
theorem SlotOf.mmulRowDrain (die idx : Nat) : SlotOf.Statement (Instr.mmulRowDrain die idx) := Or.inl rfl
theorem SlotOf.vld (a : LMem) : SlotOf.Statement (Instr.vld a) := Or.inr (Or.inr ⟨4, by decide, rfl⟩)
theorem SlotOf.vldx (a : LMem) : SlotOf.Statement (Instr.vldx a) := Or.inr (Or.inr ⟨4, by decide, rfl⟩)
theorem SlotOf.vldg (a : LMem) : SlotOf.Statement (Instr.vldg a) := Or.inr (Or.inr ⟨4, by decide, rfl⟩)
theorem SlotOf.vpref (a : VPrefA) : SlotOf.Statement (Instr.vpref a) := Or.inr (Or.inr ⟨4, by decide, rfl⟩)
theorem SlotOf.vldt (a : VLdtA) : SlotOf.Statement (Instr.vldt a) := Or.inr (Or.inr ⟨4, by decide, rfl⟩)
theorem SlotOf.fill (a : SpillA) : SlotOf.Statement (Instr.fill a) := Or.inr (Or.inr ⟨4, by decide, rfl⟩)
theorem SlotOf.vst (a : LMem) : SlotOf.Statement (Instr.vst a) := Or.inr (Or.inr ⟨5, by decide, rfl⟩)
theorem SlotOf.vstx (a : LMem) : SlotOf.Statement (Instr.vstx a) := Or.inr (Or.inr ⟨5, by decide, rfl⟩)
theorem SlotOf.vstg (a : LMem) : SlotOf.Statement (Instr.vstg a) := Or.inr (Or.inr ⟨5, by decide, rfl⟩)
theorem SlotOf.vamo (a : VAmoA) : SlotOf.Statement (Instr.vamo a) := Or.inr (Or.inr ⟨5, by decide, rfl⟩)
theorem SlotOf.spill (a : SpillA) : SlotOf.Statement (Instr.spill a) := Or.inr (Or.inr ⟨5, by decide, rfl⟩)
theorem SlotOf.loadDataReturn (die idx : Nat) : SlotOf.Statement (Instr.loadDataReturn die idx) := Or.inl rfl
theorem SlotOf.remoteVaultReply (die idx : Nat) : SlotOf.Statement (Instr.remoteVaultReply die idx) := Or.inl rfl
theorem SlotOf.translationWalkComplete (die vpage : Nat) : SlotOf.Statement (Instr.translationWalkComplete die vpage) := Or.inl rfl
theorem SlotOf.cdesc (ds : BitVec 6) (slma : BitVec 12) : SlotOf.Statement (Instr.cdesc ds slma) := Or.inr (Or.inr ⟨6, by decide, rfl⟩)
theorem SlotOf.ccopyIn (a : CopyA) : SlotOf.Statement (Instr.ccopyIn a) := Or.inr (Or.inr ⟨6, by decide, rfl⟩)
theorem SlotOf.ccopyOut (a : CopyA) : SlotOf.Statement (Instr.ccopyOut a) := Or.inr (Or.inr ⟨6, by decide, rfl⟩)
theorem SlotOf.cmcast (a : McastA) : SlotOf.Statement (Instr.cmcast a) := Or.inr (Or.inr ⟨6, by decide, rfl⟩)
theorem SlotOf.fillStart (die idx : Nat) : SlotOf.Statement (Instr.fillStart die idx) := Or.inl rfl
theorem SlotOf.cmcastReadStart (die idx : Nat) : SlotOf.Statement (Instr.cmcastReadStart die idx) := Or.inl rfl
theorem SlotOf.copyFillComplete (die idx : Nat) : SlotOf.Statement (Instr.copyFillComplete die idx) := Or.inl rfl
theorem SlotOf.copyDrainComplete (die idx : Nat) : SlotOf.Statement (Instr.copyDrainComplete die idx) := Or.inl rfl
theorem SlotOf.tdef (tn : BitVec 8) (offs : BitVec 16) (size : BitVec 13) (swz keep : Bool) : SlotOf.Statement (Instr.tdef tn offs size swz keep) := Or.inr (Or.inr ⟨6, by decide, rfl⟩)
theorem SlotOf.trel (tn : BitVec 8) : SlotOf.Statement (Instr.trel tn) := Or.inr (Or.inr ⟨6, by decide, rfl⟩)
theorem SlotOf.tcfg (tn : BitVec 8) (swz : Bool) : SlotOf.Statement (Instr.tcfg tn swz) := Or.inr (Or.inr ⟨6, by decide, rfl⟩)
theorem SlotOf.cflush (tout : Tok) (tin : Toks) (inv : Bool) : SlotOf.Statement (Instr.cflush tout tin inv) := Or.inr (Or.inr ⟨6, by decide, rfl⟩)
theorem SlotOf.cflushComplete (die idx : Nat) : SlotOf.Statement (Instr.cflushComplete die idx) := Or.inl rfl
theorem SlotOf.csplit (nw : BitVec 5) : SlotOf.Statement (Instr.csplit nw) := Or.inr (Or.inr ⟨6, by decide, rfl⟩)
theorem SlotOf.cstat (dc : BitVec 2) (k : CStatK) : SlotOf.Statement (Instr.cstat dc k) := Or.inr (Or.inr ⟨6, by decide, rfl⟩)
theorem SlotOf.cacheLineWriteback (die pa : Nat) : SlotOf.Statement (Instr.cacheLineWriteback die pa) := Or.inl rfl
theorem SlotOf.twait (tin : Toks) : SlotOf.Statement (Instr.twait tin) := Or.inr (Or.inr ⟨7, by decide, rfl⟩)
theorem SlotOf.bacq (shared : Bool) (region : BitVec 7) : SlotOf.Statement (Instr.bacq shared region) := Or.inr (Or.inr ⟨7, by decide, rfl⟩)
theorem SlotOf.bollardGrant (addr : Nat) : SlotOf.Statement (Instr.bollardGrant addr) := Or.inl rfl
theorem SlotOf.brel (region : BitVec 7) : SlotOf.Statement (Instr.brel region) := Or.inr (Or.inr ⟨7, by decide, rfl⟩)
theorem SlotOf.bollardRelease (addr ctx : Nat) : SlotOf.Statement (Instr.bollardRelease addr ctx) := Or.inl rfl
theorem SlotOf.bollardWriteback (addr : Nat) : SlotOf.Statement (Instr.bollardWriteback addr) := Or.inl rfl
theorem SlotOf.fence (sc : Scope) : SlotOf.Statement (Instr.fence sc) := Or.inr (Or.inr ⟨7, by decide, rfl⟩)
theorem SlotOf.sigadd (sc : Scope) (xd xa xb : Reg) : SlotOf.Statement (Instr.sigadd sc xd xa xb) := Or.inr (Or.inr ⟨7, by decide, rfl⟩)
theorem SlotOf.sigst (sc : Scope) (xa xb : Reg) : SlotOf.Statement (Instr.sigst sc xa xb) := Or.inr (Or.inr ⟨7, by decide, rfl⟩)
theorem SlotOf.sigwait (c : PCond) (sc : Scope) (xd xa xb : Reg) : SlotOf.Statement (Instr.sigwait c sc xd xa xb) := Or.inr (Or.inr ⟨7, by decide, rfl⟩)
theorem SlotOf.sigwaitPollTimer (ctx : Nat) : SlotOf.Statement (Instr.sigwaitPollTimer ctx) := Or.inl rfl
theorem SlotOf.enq (xd xa : Reg) (slma : BitVec 12) : SlotOf.Statement (Instr.enq xd xa slma) := Or.inr (Or.inr ⟨7, by decide, rfl⟩)
theorem SlotOf.yield : SlotOf.Statement (Instr.yield) := Or.inr (Or.inr ⟨7, by decide, rfl⟩)
theorem SlotOf.trap (code : BitVec 16) : SlotOf.Statement (Instr.trap code) := Or.inr (Or.inr ⟨7, by decide, rfl⟩)
theorem SlotOf.mbox (xd xa xb : Reg) : SlotOf.Statement (Instr.mbox xd xa xb) := Or.inr (Or.inr ⟨7, by decide, rfl⟩)
theorem SlotOf.mboxReply (xa xb : Reg) : SlotOf.Statement (Instr.mboxReply xa xb) := Or.inr (Or.inr ⟨7, by decide, rfl⟩)
theorem SlotOf.eretReplay (xd xa : Reg) : SlotOf.Statement (Instr.eretReplay xd xa) := Or.inr (Or.inr ⟨7, by decide, rfl⟩)
theorem SlotOf.eretSkip (xd xa : Reg) : SlotOf.Statement (Instr.eretSkip xd xa) := Or.inr (Or.inr ⟨7, by decide, rfl⟩)
theorem SlotOf.rrfillRetry (xd xa : Reg) : SlotOf.Statement (Instr.rrfillRetry xd xa) := Or.inr (Or.inr ⟨7, by decide, rfl⟩)
theorem SlotOf.rrfillData (xd xa xb : Reg) : SlotOf.Statement (Instr.rrfillData xd xa xb) := Or.inr (Or.inr ⟨7, by decide, rfl⟩)
theorem SlotOf.felog (sel : QSel) (clr : Bool) (xd xe : Reg) : SlotOf.Statement (Instr.felog sel clr xd xe) := Or.inr (Or.inr ⟨7, by decide, rfl⟩)
theorem SlotOf.mstat (sel : QSel) (clr : Bool) (xd : Reg) : SlotOf.Statement (Instr.mstat sel clr xd) := Or.inr (Or.inr ⟨7, by decide, rfl⟩)
theorem SlotOf.sysrd (xd : Reg) (addr : BitVec 12) : SlotOf.Statement (Instr.sysrd xd addr) := Or.inr (Or.inr ⟨7, by decide, rfl⟩)
theorem SlotOf.syswr (xa : Reg) (addr : BitVec 12) : SlotOf.Statement (Instr.syswr xa addr) := Or.inr (Or.inr ⟨7, by decide, rfl⟩)
theorem SlotOf.rdv (tag : BitVec 16) : SlotOf.Statement (Instr.rdv tag) := Or.inr (Or.inr ⟨7, by decide, rfl⟩)
theorem SlotOf.red (op : YRed) (xd : Reg) (dc : BitVec 2) : SlotOf.Statement (Instr.red op xd dc) := Or.inr (Or.inr ⟨7, by decide, rfl⟩)
theorem SlotOf.mask (a : MaskA) : SlotOf.Statement (Instr.mask a) := Or.inr (Or.inr ⟨7, by decide, rfl⟩)
theorem SlotOf.perm (a : PermA) : SlotOf.Statement (Instr.perm a) := Or.inr (Or.inr ⟨7, by decide, rfl⟩)
theorem SlotOf.permVault (a : PermVA) : SlotOf.Statement (Instr.permVault a) := Or.inr (Or.inr ⟨7, by decide, rfl⟩)
theorem SlotOf.permLockstep (ctx : Nat) : SlotOf.Statement (Instr.permLockstep ctx) := Or.inl rfl
theorem SlotOf.permDataWrite (ctx : Nat) : SlotOf.Statement (Instr.permDataWrite ctx) := Or.inl rfl
theorem SlotOf.coll (xd : Reg) (tout : Tok) (tin : Toks) (slma : BitVec 12) : SlotOf.Statement (Instr.coll xd tout tin slma) := Or.inr (Or.inr ⟨7, by decide, rfl⟩)
theorem SlotOf.cwait (xd xa : Reg) : SlotOf.Statement (Instr.cwait xd xa) := Or.inr (Or.inr ⟨7, by decide, rfl⟩)
theorem SlotOf.cwaitTest (xd xa : Reg) : SlotOf.Statement (Instr.cwaitTest xd xa) := Or.inr (Or.inr ⟨7, by decide, rfl⟩)
theorem SlotOf.ccancel (xd xa : Reg) : SlotOf.Statement (Instr.ccancel xd xa) := Or.inr (Or.inr ⟨7, by decide, rfl⟩)
theorem SlotOf.responseReport (ctx : Nat) : SlotOf.Statement (Instr.responseReport ctx) := Or.inl rfl
theorem SlotOf.segmentCommit (ctx : Nat) : SlotOf.Statement (Instr.segmentCommit ctx) := Or.inl rfl
theorem SlotOf.faultedDieRestore (die : Nat) : SlotOf.Statement (Instr.faultedDieRestore die) := Or.inl rfl
theorem SlotOf.replayResend (ctx : Nat) : SlotOf.Statement (Instr.replayResend ctx) := Or.inl rfl
theorem SlotOf.linkRetransmit (ctx failures bank : Nat) : SlotOf.Statement (Instr.linkRetransmit ctx failures bank) := Or.inl rfl
theorem SlotOf.faultFlagArrival (ctx : Nat) : SlotOf.Statement (Instr.faultFlagArrival ctx) := Or.inl rfl
theorem SlotOf.stopArrival (die : Nat) : SlotOf.Statement (Instr.stopArrival die) := Or.inl rfl
theorem SlotOf.contextFrozen (ctx : Nat) : SlotOf.Statement (Instr.contextFrozen ctx) := Or.inl rfl
theorem SlotOf.detachedCopyComplete (die idx : Nat) : SlotOf.Statement (Instr.detachedCopyComplete die idx) := Or.inl rfl
theorem SlotOf.contextSaveComplete (ctx : Nat) : SlotOf.Statement (Instr.contextSaveComplete ctx) := Or.inl rfl
theorem SlotOf.contextStopped (ctx : Nat) : SlotOf.Statement (Instr.contextStopped ctx) := Or.inl rfl
theorem SlotOf.doorbell (q : HostTo) (v : W64) : SlotOf.Statement (Instr.doorbell q v) := Or.inl rfl
theorem SlotOf.queueMapWaiting : SlotOf.Statement (Instr.queueMapWaiting) := Or.inl rfl
theorem SlotOf.berthIdleTimeout (b : Nat) : SlotOf.Statement (Instr.berthIdleTimeout b) := Or.inl rfl
theorem SlotOf.packetFetch (b : Nat) : SlotOf.Statement (Instr.packetFetch b) := Or.inl rfl
theorem SlotOf.dispatchDecision : SlotOf.Statement (Instr.dispatchDecision) := Or.inl rfl
theorem SlotOf.berthClassPromote (b : Nat) : SlotOf.Statement (Instr.berthClassPromote b) := Or.inl rfl
theorem SlotOf.nop (h : PHdr) : SlotOf.Statement (Instr.nop h) := Or.inl rfl
theorem SlotOf.launch (h : PHdr) (p : LaunchP) : SlotOf.Statement (Instr.launch h p) := Or.inl rfl
theorem SlotOf.gang (h : PHdr) (p : GangP) : SlotOf.Statement (Instr.gang h p) := Or.inl rfl
theorem SlotOf.partitionObtained (task : Nat) : SlotOf.Statement (Instr.partitionObtained task) := Or.inl rfl
theorem SlotOf.gangReserveTimeout (task : Nat) : SlotOf.Statement (Instr.gangReserveTimeout task) := Or.inl rfl
theorem SlotOf.graph (h : PHdr) (gaddr : BitVec 56) (nnode : BitVec 12) : SlotOf.Statement (Instr.graph h gaddr nnode) := Or.inl rfl
theorem SlotOf.graphNodeDispatch : SlotOf.Statement (Instr.graphNodeDispatch) := Or.inl rfl
theorem SlotOf.barrier (h : PHdr) (p : BarrierP) : SlotOf.Statement (Instr.barrier h p) := Or.inl rfl
theorem SlotOf.barrierPollTimer (b : Nat) : SlotOf.Statement (Instr.barrierPollTimer b) := Or.inl rfl
theorem SlotOf.signal (h : PHdr) (saddr : BitVec 56) (store : Bool) (sval : W64) : SlotOf.Statement (Instr.signal h saddr store sval) := Or.inl rfl
theorem SlotOf.copy (h : PHdr) (p : CopyP) : SlotOf.Statement (Instr.copy h p) := Or.inl rfl
theorem SlotOf.copyPacketComplete (task : Nat) : SlotOf.Statement (Instr.copyPacketComplete task) := Or.inl rfl
theorem SlotOf.indirect (h : PHdr) (iaddr : BitVec 56) (icount : BitVec 16) : SlotOf.Statement (Instr.indirect h iaddr icount) := Or.inl rfl
theorem SlotOf.loopPacket (h : PHdr) (passes : BitVec 16) (lcount : BitVec 8) : SlotOf.Statement (Instr.loopPacket h passes lcount) := Or.inl rfl
theorem SlotOf.pred (h : PHdr) (p : PredP) : SlotOf.Statement (Instr.pred h p) := Or.inl rfl
theorem SlotOf.fetchfence (h : PHdr) : SlotOf.Statement (Instr.fetchfence h) := Or.inl rfl
theorem SlotOf.event (h : PHdr) (payload : W64) : SlotOf.Statement (Instr.event h payload) := Or.inl rfl
theorem SlotOf.phase (h : PHdr) : SlotOf.Statement (Instr.phase h) := Or.inl rfl
theorem SlotOf.cancel (h : PHdr) (ctag : BitVec 32) (lvl : CLevel) (kill : Bool) : SlotOf.Statement (Instr.cancel h ctag lvl kill) := Or.inl rfl
theorem SlotOf.timestamp (h : PHdr) (taddr : BitVec 56) : SlotOf.Statement (Instr.timestamp h taddr) := Or.inl rfl
theorem SlotOf.launchDrained (ctx : Nat) : SlotOf.Statement (Instr.launchDrained ctx) := Or.inl rfl
theorem SlotOf.launchCompletion (ctx : Nat) : SlotOf.Statement (Instr.launchCompletion ctx) := Or.inl rfl
theorem SlotOf.eventRingSpace (part : Nat) : SlotOf.Statement (Instr.eventRingSpace part) := Or.inl rfl
theorem SlotOf.eventRingIrqCount (part : Nat) : SlotOf.Statement (Instr.eventRingIrqCount part) := Or.inl rfl
theorem SlotOf.eventRingIrqTimeout (part : Nat) : SlotOf.Statement (Instr.eventRingIrqTimeout part) := Or.inl rfl
theorem SlotOf.specRunStart (b : Nat) : SlotOf.Statement (Instr.specRunStart b) := Or.inl rfl
theorem SlotOf.specDiscardComplete (ctx : Nat) : SlotOf.Statement (Instr.specDiscardComplete ctx) := Or.inl rfl
theorem SlotOf.cxlMemWrite (pa : HostTo) (bytes : List Byte) : SlotOf.Statement (Instr.cxlMemWrite pa bytes) := Or.inl rfl
theorem SlotOf.cxlMemRead (pa : HostTo) (len : Nat) : SlotOf.Statement (Instr.cxlMemRead pa len) := Or.inl rfl
theorem SlotOf.storeAck (port dest n : Nat) : SlotOf.Statement (Instr.storeAck port dest n) := Or.inl rfl
theorem SlotOf.accessionRequest (ctx idx : Nat) : SlotOf.Statement (Instr.accessionRequest ctx idx) := Or.inl rfl
theorem SlotOf.accessionAssign (job gid seq : Nat) : SlotOf.Statement (Instr.accessionAssign job gid seq) := Or.inl rfl
theorem SlotOf.grantArrival (job gid seq : Nat) (m : GrantMsg) : SlotOf.Statement (Instr.grantArrival job gid seq m) := Or.inl rfl
theorem SlotOf.accessionLive (job gid seq : Nat) (m : LiveMsg) : SlotOf.Statement (Instr.accessionLive job gid seq m) := Or.inl rfl
theorem SlotOf.collectiveComplete (key : AccKey) (remote : List (Nat × List Byte)) (fault : Bool) (others : List Nat) : SlotOf.Statement (Instr.collectiveComplete key remote fault others) := Or.inl rfl
theorem SlotOf.cancelDecision (key : AccKey) (verdict : Option Nat) (ep : BitVec 16) : SlotOf.Statement (Instr.cancelDecision key verdict ep) := Or.inl rfl
theorem SlotOf.backupAck (n : Nat) : SlotOf.Statement (Instr.backupAck n) := Or.inl rfl
theorem SlotOf.registrarHeartbeat : SlotOf.Statement (Instr.registrarHeartbeat) := Or.inl rfl
theorem SlotOf.registrarFailover : SlotOf.Statement (Instr.registrarFailover) := Or.inl rfl
theorem SlotOf.epochAnnounce (epoch : BitVec 16) : SlotOf.Statement (Instr.epochAnnounce epoch) := Or.inl rfl
theorem SlotOf.svccmdKill (p : Nat) : SlotOf.Statement (Instr.svccmdKill p) := Or.inl rfl
theorem SlotOf.svccmdPreempt (p : Nat) : SlotOf.Statement (Instr.svccmdPreempt p) := Or.inl rfl
theorem SlotOf.svccmdRestore (p : Nat) : SlotOf.Statement (Instr.svccmdRestore p) := Or.inl rfl
theorem SlotOf.xinv (w : W64) : SlotOf.Statement (Instr.xinv w) := Or.inl rfl
theorem SlotOf.xinvComplete : SlotOf.Statement (Instr.xinvComplete) := Or.inl rfl
theorem SlotOf.trappendW1c (hi : Bool) (w : W64) : SlotOf.Statement (Instr.trappendW1c hi w) := Or.inl rfl
theorem SlotOf.erbclr (w : W64) : SlotOf.Statement (Instr.erbclr w) := Or.inl rfl
theorem SlotOf.clkctlWrite (w : W64) : SlotOf.Statement (Instr.clkctlWrite w) := Or.inl rfl
theorem SlotOf.clockRatioSwitch : SlotOf.Statement (Instr.clockRatioSwitch) := Or.inl rfl
theorem SlotOf.pmodeWrite (w : W64) : SlotOf.Statement (Instr.pmodeWrite w) := Or.inl rfl
theorem SlotOf.pjobWrite (w : W64) : SlotOf.Statement (Instr.pjobWrite w) := Or.inl rfl
theorem SlotOf.registerWrite (addr : BitVec 12) (w : W64) : SlotOf.Statement (Instr.registerWrite addr w) := Or.inl rfl
theorem SlotOf.bootgo (w : HostW) : SlotOf.Statement (Instr.bootgo w) := Or.inl rfl
theorem SlotOf.imageVerifyDone : SlotOf.Statement (Instr.imageVerifyDone) := Or.inl rfl
theorem SlotOf.memoryPortLinkTrain (p cap : Nat) : SlotOf.Statement (Instr.memoryPortLinkTrain p cap) := Or.inl rfl
theorem SlotOf.memoryPortLinkDown (p : Nat) : SlotOf.Statement (Instr.memoryPortLinkDown p) := Or.inl rfl
theorem SlotOf.attestationRequest (nonce : BitVec 512) : SlotOf.Statement (Instr.attestationRequest nonce) := Or.inl rfl
theorem SlotOf.verticalBusRepair (die bank : Nat) : SlotOf.Statement (Instr.verticalBusRepair die bank) := Or.inl rfl
theorem SlotOf.moduleReset : SlotOf.Statement (Instr.moduleReset) := Or.inl rfl
theorem SlotOf.powerRemoval : SlotOf.Statement (Instr.powerRemoval) := Or.inl rfl
theorem SlotOf.throttlePoint : SlotOf.Statement (Instr.throttlePoint) := Or.inl rfl
theorem SlotOf.thermalTrip : SlotOf.Statement (Instr.thermalTrip) := Or.inl rfl
theorem SlotOf.throttlePulseRemoval (ctx : Nat) : SlotOf.Statement (Instr.throttlePulseRemoval ctx) := Or.inl rfl
theorem SlotOf.cacheLineDrop (die pa : Nat) : SlotOf.Statement (Instr.cacheLineDrop die pa) := Or.inl rfl
theorem SlotOf.storedError (e : ErrAt) (kind : BitVec 4) (syndrome : W64) : SlotOf.Statement (Instr.storedError e kind syndrome) := Or.inl rfl
theorem SlotOf.vyivoLinkDown (l : Nat) : SlotOf.Statement (Instr.vyivoLinkDown l) := Or.inl rfl
theorem SlotOf.hostPortLinkDown : SlotOf.Statement (Instr.hostPortLinkDown) := Or.inl rfl
theorem SlotOf.hotClear : SlotOf.Statement (Instr.hotClear) := Or.inl rfl
theorem SlotOf.jobClose (job : Nat) : SlotOf.Statement (Instr.jobClose job) := Or.inl rfl
theorem SlotOf.groupCreate (job gid : Nat) (members : List (Nat × Nat)) : SlotOf.Statement (Instr.groupCreate job gid members) := Or.inl rfl
theorem SlotOf.backupRegistrarDesignate (mid : Designation) : SlotOf.Statement (Instr.backupRegistrarDesignate mid) := Or.inl rfl
theorem SlotOf.jobWideRegionSet (job entry : Nat) (e : BitVec 256) : SlotOf.Statement (Instr.jobWideRegionSet job entry e) := Or.inl rfl

end Sys2Proof.Laws
end

