-- ==== Sys2Proof/Tests/Slice0.lean ====
section
/-! SUPPORT. The model's own tests: words of the spec's encodings, refused terms, results that the spec gives, and, for each statement with
hypotheses, a state and operands that meet them (`meets_…`). -/

namespace Sys2Proof.Tests

-- one theorem at a time: each is a computation of its own
set_option Elab.async false

open Sys2Proof Sys2Proof.Machine Sys2Proof.Claim

/-! ### Words of the encodings, their fields written as (lowest bit, value) -/

/-- A word from its fields. -/
def word (fs : List (Nat × Nat)) : SlotBits := BitVec.ofNat 62 (fs.foldl (fun n f => n + f.2 * 2 ^ f.1) 0)

/-- The computation answers this value. -/
def isOk {ε α : Type} [DecidableEq α] (r : Except ε α) (v : α) : Bool :=
  match r with
  | .ok x => decide (x = v)
  | .error _ => false

/-- The computation answers this error. -/
def isErr {ε α : Type} [DecidableEq ε] (r : Except ε α) (e : ε) : Bool :=
  match r with
  | .ok _ => false
  | .error x => decide (x = e)

theorem ok_of {ε α : Type} [DecidableEq α] {r : Except ε α} {v : α} (h : isOk r v = true) : r = .ok v := by
  cases r with
  | ok x => rw [of_decide_eq_true h]
  | error e => cases h

theorem err_of {ε α : Type} [DecidableEq ε] {r : Except ε α} {e : ε} (h : isErr r e = true) : r = .error e := by
  cases r with
  | error x => rw [of_decide_eq_true h]
  | ok x => cases h

/-- The field decodes to the instruction in that slot. -/
def reads (k : Nat) (f : SlotBits) (i : Instr) : Bool := (decodeSlot k f).toOption == some i

/-- The field is rejected in that slot. -/
def rejects (k : Nat) (f : SlotBits) : Bool := (decodeSlot k f).toOption == none

/-- S slot: `ADD x5, x6, x7` (the word after R79), `LIH x7, 0xDEADBEEF` (R103), `LOOP x4, 3` (R119), `LDG.8 x6, 48(x2)` (R113),
`EXIT 0` (R120); from the formats, `CMP.lt q1, x2, x3` (R104). -/
theorem test_decode_S :
    (reads 0 0x01146001C0000000 (.add 5 6 7) && reads 0 0x1E1C0000DEADBEEF (.lih 7 0xDEADBEEF) &&
      reads 0 0x3D00400000000003 (.loop 4 3) && reads 0 0x3218203000000000 (.ldg .b8 false false 6 2 0) &&
      reads 0 (word [(56, 0x20), (50, 1), (44, 2), (36, 2), (30, 3)]) (.cmp 1 .lt 2 3) && reads 0 0x3E00000000000000 (.exit 0)) = true := by
  decide +kernel

/-- V slot: `VCVT.FP8A.FP32.rne.sat $40:8, $0:32` (R160's example), `VMUL.S16 $93:12, $31:4, $100:16`, `VCOND.fsum.FP32.p1 dc0, $0:32` (the
words of the programs); from the formats, `VADD.S32.p3 $120:32, x5, #lane` (R73, R75) and `VREDR.add.S16 $100:16, $10:4` (R165). -/
theorem test_decode_V :
    (reads 1 0x1A0A14100400008E (.vcvt ⟨0, .fp8a, .fp32, .rne, true, ⟨40, .w8⟩, .sl ⟨0, .w32⟩⟩) &&
      reads 1 0x03022EA0F8323000 (.vmul ⟨0, .s16, ⟨93, .w12⟩, .sl ⟨31, .w4⟩, .sl ⟨100, .w16⟩⟩) &&
      reads 2 0x381E000004000005 (.vcond ⟨1, .fp32, .fsum, 0, .sl ⟨0, .w32⟩⟩) &&
      reads 1 (word [(56, 0x01), (52, 3), (48, 3), (36, 0x3C4), (24, 0x02F), (12, 0x207)]) (.vadd ⟨3, .s32, ⟨120, .w32⟩, .x 5, .lane⟩) &&
      reads 2 (word [(56, 0x2D), (48, 2), (36, 100 * 8 + 3), (24, 10 * 8)]) (.vredr ⟨0, .s16, .add, ⟨100, .w16⟩, .sl ⟨10, .w4⟩⟩)) = true := by
  decide +kernel

/-- M slot: `MLDS.g4 tk2, T7, x10, x11` and `MMUL.bf16.set tk4, vw1, vw2, 32` (the words that the spec writes out); MSWAP (R178). -/
theorem test_decode_M :
    (reads 3 0x0108000000E516C0 (.mlds ⟨2, ⟨0, 0, 0, 0⟩, 7, 10, 11, .g4, false⟩) &&
      reads 3 0x031000000500F800 (.mmul ⟨4, ⟨0, 0, 0, 0⟩, 1, 2, 31, .bf16, false, false⟩) && reads 3 (word [(56, 2)]) .mswap) = true := by
  decide +kernel

/-- LD and SD slots: `VLD.p2 $32:32, 64(x9), #lane, 2` (R227's example), `VLDT $0:16, T1, x5, #quad, 4096` (the programs' word); from the
formats (R225, R226), FILL and `VAMO.cas.vault`. -/
theorem test_decode_memory :
    (reads 4 0x0121042072500040 (.vld ⟨2, ⟨32, .w32⟩, .lane, 9, 2, false, 64⟩) && reads 4 0x0200038071700800 (.vldt ⟨0, 0, .quad, 5, 6, 1⟩) &&
      reads 4 (word [(56, 5), (43, 500), (34, 11), (22, 4084), (16, 3)]) (.fill ⟨0, 500, 11, 4084, 3⟩) &&
      reads 5 (word [(56, 4), (40, 0x004), (28, 8 * 8 + 4), (16, 0x207), (10, 6), (7, 2), (3, 9)])
        (.vamo ⟨0, ⟨0, .w32⟩, ⟨8, .w32⟩, .lane, 6, 2, .cas, false⟩)) = true := by
  decide +kernel

/-- C slot: `CCOPY.in tk5, T2, 3, x6, x7`, `CMCAST tk1, T4, 0, x0, x13, x14`, `CDESC 0, 0x200`, `TDEF.swz T1, 0, 64` (words of the spec). -/
theorem test_decode_C :
    (reads 6 0x0214000000418C38 (.ccopyIn ⟨5, ⟨0, 0, 0, 0⟩, 2, 3, 6, 7, .none⟩) &&
      reads 6 0x03040000400034E0 (.cmcast ⟨1, 0, 0, 0, 4, 0, 0, 13, 14⟩) && reads 6 0x0100020000000000 (.cdesc 0 8) &&
      reads 6 0x0401000002040000 (.tdef 1 0 64 true false)) = true := by
  decide +kernel

/-- Y slot: words that the spec writes out: TWAIT (R327), FENCE.mod (R329), SIGADD, SIGWAIT (R330, R331), SYSRD (R342), MASK (R407), RED,
PERM, RDV, COLL and CCANCEL (the examples of the gang chapters). -/
theorem test_decode_Y :
    (reads 7 0x0124800000000000 (.twait ⟨1, 9, 0, 0⟩) && reads 7 0x04000000C0000000 (.fence .mod) &&
      reads 7 0x080092C0C0000000 (.sigadd .mod 0 9 11) && reads 7 0x0A1492C6C0000000 (.sigwait .ge .mod 5 9 11) &&
      reads 7 0x1114000000000003 (.sysrd 5 3) && reads 7 0x2210C00000000000 (.mask ⟨4, 3, false, false⟩) &&
      reads 7 0x2128600000000000 (.red .fsum 10 0) && reads 7 0x214A200000000000 (.red .and 18 2) &&
      reads 7 0x2322012003C00000 (.perm ⟨.rot .row, 2, 1, 64, 15⟩) && reads 7 0x2000010000000000 (.rdv 1) &&
      reads 7 0x2828100000000800 (.coll 10 1 ⟨0, 0, 0, 0⟩ 1) && reads 7 0x2A34C00000000000 (.ccancel 13 12)) = true := by
  decide +kernel

/-- The bundle that R67's example lays out; the rejections of R69's example and of ADD with a third source (details 0x51 and 0x40). -/
theorem test_decode_bundle :
    (isOk (decodeBundle (BitVec.ofNat 512 (0x00010451800700000000000000000000 * 2 ^ 384))) ⟨false, false, false, false, 0, [(0, .add 5 6 7)]⟩ &&
      isErr (decodeBundle (BitVec.ofNat 512 (0x0003 * 2 ^ 496 + 0x01146001C0000000 * 2 ^ 434 + 0x010F000000000000 * 2 ^ 372 + 2 ^ 62))) 0x51 &&
      isErr (decodeBundle (BitVec.ofNat 512 (0x0001 * 2 ^ 496 + 0x01146001C3000000 * 2 ^ 434))) 0x40) = true := by
  decide +kernel

/-- A word of zeros is the no-operation (R16); a present field of zeros is rejected (R151). -/
theorem test_decode_zero : decodeTableWord 512 0 = some .noOperation ∧ (∀ k < 8, rejects k 0 = true) := by decide +kernel

/-- A packet whose header bytes are those of R275's example decodes to a LAUNCH with that header; type 0x0F is no packet. -/
theorem test_decode_packet :
    decodePacket (BitVec.ofNat 512 (0x0000000700001601 + 0x00007A0000001000 * 2 ^ 64 + 5 * 2 ^ 393 + 0x40 * 2 ^ 456)) =
        some (.launch ⟨0x7A0000001000, 7, true, .mod, true, false⟩ ⟨0x40, 0, 5, 0, false⟩) ∧ decodePacket 0x0F = none := by
  decide +kernel

/-! ### One ill-formed term for each check (R68) -/

/-- FIELD_RSV: an unused token field that is not zero. -/
theorem test_refuses_rsv : (Instr.twait ⟨0, 9, 0, 0⟩).rsvOk = false ∧ (Instr.twait ⟨0, 9, 0, 0⟩).wf = false := by decide +kernel
/-- FUNCTION: VMULH at a floating-point type. -/
theorem test_refuses_function : (Instr.vmulh ⟨0, .fp32, ⟨0, .w32⟩, .lane, .lane⟩).fnOk = false ∧
    (Instr.vmulh ⟨0, .fp32, ⟨0, .w32⟩, .lane, .lane⟩).wf = false := by decide +kernel
/-- WIDTH: a source wider than the type. -/
theorem test_refuses_width : (Instr.vmin ⟨0, .fp32, ⟨0, .w32⟩, .sl ⟨0, .w64⟩, .lane⟩).widthOk = false ∧
    (Instr.vmin ⟨0, .fp32, ⟨0, .w32⟩, .sl ⟨0, .w64⟩, .lane⟩).wf = false := by decide +kernel
/-- SLICE_RANGE: slices past 511. -/
theorem test_refuses_range : (Instr.fill ⟨0, 510, 2, 0, 0⟩).rangeOk = false ∧ (Instr.fill ⟨0, 510, 2, 0, 0⟩).wf = false := by decide +kernel
/-- LACC_ALIGN: a long accumulator off its alignment. -/
theorem test_refuses_align : (Instr.vlclr 0 3).alignOk = false ∧ (Instr.vlclr 0 3).wf = false := by decide +kernel

/-! ### States -/

/-- The state after an outcome. -/
def after (o : Host.Outcome State Fault Refusal) : State :=
  match o with
  | .next t => t
  | _ => State.reset

/-- A launch on context 0, whose tables map the first GiB, with its next bundle at 0x20000 (log 2). -/
def base : State := State.reset.loaded

/-- `base` with some registers set. -/
def regs (l : List (Reg × W64)) : State := l.foldl (fun s e => s.setX e.1 e.2) base

/-- The register after an instruction. -/
def xAfter (i : Instr) (s : State) (n : Reg) : W64 := (after (exec i s)).cx.sc.getX n

/-- A packet without slots. -/
def pk : Packet :=
  { rv := false, rep := false, slots := [], words := [], wregs := [], bsn := 9, addr := 0x20240, rm := 0, pass := 0, rotn := 0, desc := none,
    replay := none }

/-- A packet with scalar words (R78). -/
def pkW (l : List (Reg × W64)) : Packet := { pk with wregs := l.map (·.1), words := l.map (·.2) }

/-- A die with some lanes of quadrant 0, which is enabled. -/
def dieOf (l : List Lane) : Die :=
  let y := Die.reset 0
  { y with regs := { y.regs with lanes := l, qmask := 1 } }

/-- A lane with values in slices: first slice, number of slices, value. -/
def lane (l : List (Nat × Nat × Nat)) : Lane := l.foldl (fun k e => k.apply (putSlices ((List.range e.2.1).map (e.1 + ·)) e.2.2)) Lane.zero

/-- The slices of a lane as a number. -/
def laneRd (l : Lane) (start n : Nat) : Nat := l.rd ((List.range n).map (start + ·))

/-- Slot V0 of a bundle at a die that context 0 drives. -/
def onDie (y : Die) (p : Packet) : State := { base.setDie 0 y with cur := { Cur.reset with side := .die, slot := 1, pkt := some p } }

/-- A lane after the first result in flight has landed. -/
def laneAfter (i : Instr) (s : State) (pos : Nat) : Lane :=
  match (after (exec i s)).dx.flights with
  | f :: _ => ((s.laneAt pos).apply (f.lanes.getD pos {}))
  | [] => Lane.zero

/-! ### Results that the spec gives -/

/-- R100's examples. -/
theorem test_integer :
    xAfter (.sra 5 6 7) (regs [(6, 0x8000000000000000), (7, 3)]) 5 = 0xF000000000000000 ∧
      xAfter (.shr 5 6 7) (regs [(6, 0x8000000000000000), (7, 200)]) 5 = 0 ∧
      xAfter (.sra 5 6 7) (regs [(6, 0x8000000000000000), (7, 200)]) 5 = 0xFFFFFFFFFFFFFFFF ∧
      xAfter (.div 5 6 0) (regs [(6, 0x8000000000000000)]) 5 = 0xFFFFFFFFFFFFFFFF ∧
      xAfter (.rem 5 6 0) (regs [(6, 0x8000000000000000)]) 5 = 0x8000000000000000 := by decide +kernel

/-- R103's example: LIH keeps the low half. -/
theorem test_lih : xAfter (.lih 7 0xDEADBEEF) (regs [(7, 0x1000)]) 7 = 0xDEADBEEF00001000 := by decide +kernel

/-- R110's examples: saturation, and `.sat`. -/
theorem test_fcvt :
    xAfter (.fcvt .s32fp32 false .rtz 5 6) (regs [(6, 0x4F000000)]) 5 = 0x7FFFFFFF ∧
      xAfter (.fcvt .bf16fp32 true .rne 5 6) (regs [(6, 0x7F800000)]) 5 = 0x7F7F ∧
      xAfter (.fcvt .bf16fp32 false .rne 5 6) (regs [(6, 0x7F800000)]) 5 = 0x7F80 := by decide +kernel

/-- x0 discards what is written to it (R96). -/
theorem test_x0 : xAfter (.addi 0 0 5) base 0 = 0 := by decide +kernel

/-- An unaligned LDS freezes its context with SLM_ALIGN and leaves PC (R28, R29, R112). -/
theorem test_slm_align :
    let t := (after (exec (.lds .b8 false 5 0 4) base)).cx
    t.frozen = true ∧ t.trappend = true ∧ t.fcr.cause = 0x0005 ∧ t.pc = base.cx.pc := by decide +kernel

/-- A bundle at the E of a loop goes back to S and counts (R24). -/
theorem test_back_edge :
    let s := base.updCx fun x => { x with loops := [⟨3, 0x1FFC0, 0x20000, 0⟩] }
    let t := (after (exec .noOperation s)).cx
    t.pc = 0x1FFC0 ∧ t.bsn = 1 ∧ t.loops = [⟨2, 0x1FFC0, 0x20000, 1⟩] := by decide +kernel

/-- R13's example: an 8-byte load from SLM 0x38 reads LAUNCHID, and bits 37 to 31 of the 8 bytes at 0x18 are DCOUNT. -/
theorem test_launch_record :
    let s := base.updCx fun x => { x with lrec := BitVec.ofNat 512 (0x1122334455667788 * 2 ^ 448 + 5 * 2 ^ 223) }
    xAfter (.lds .b8 false 5 0 0x38) s 5 = 0x1122334455667788 ∧ xAfter (.lds .b8 false 5 0 0x18) s 5 >>> 31 &&& 127 = 5 := by decide +kernel

/-- A walk of an address whose level-1 entry is not valid: level 1, condition INVALID (R361, R363). -/
theorem test_walk_invalid : isErr (base.translate [] (base.ctxXlat 0) .load false 0x40000000) 0x11 = true := by decide +kernel

/-- The table after R129: a narrow, an equal and two wider destinations, with S and N extension. -/
theorem test_operand_widths :
    let s := onDie (dieOf [lane [(10, 1, 0xB), (30, 2, 3), (20, 8, 0x77777777)]]) pk
    let a (ty : ETy) (w : Width) : Instr := .vadd ⟨0, ty, ⟨20, w⟩, .sl ⟨10, .w4⟩, .sl ⟨30, .w8⟩⟩
    laneRd (laneAfter (a .s16 .w16) s 0) 20 4 = 0xFFFE ∧ laneRd (laneAfter (a .s16 .w8) s 0) 20 8 = 0x777777FE ∧
      laneRd (laneAfter (a .s16 .w32) s 0) 20 8 = 0xFFFFFFFE ∧ laneRd (laneAfter (a .n16 .w16) s 0) 20 4 = 0x000E := by decide +kernel

/-- The example after R135: one step of a view with K = 8 renames `$80:32` to the slices that `$72:32` named. -/
theorem test_rename :
    let v := w64 (3 * 2 ^ 61 + 64 * 2 ^ 52 + 32 * 2 ^ 42 + 8 * 2 ^ 33)
    renSl [v] 72 = 72 ∧ vwRrb (rotView 1 v) = 24 ∧ renSl [rotView 1 v] 80 = 72 ∧ renSl [rotView 1 v] 96 = 96 := by decide +kernel

/-- The table after R160: FP32 to FP8A with `.sat`, and the OVERFLOW of 465.0. -/
theorem test_vcvt :
    let c (sat : Bool) (x : Nat) := convert .fp32 .fp8a .rne sat x
    c true 0x3F800000 = (0x38, {}) ∧ c false 0x43E80000 = (0x7E, {}) ∧ (c false 0x43E88000).1 = 0x7F ∧
      c true 0x43E88000 = (0x7E, { ovf := true }) ∧ c true 0x3A800000 = (0, { unf := true }) ∧ (c true 0x7FC00000).1 = 0x7F := by decide +kernel

/-- The example after R57: 2^100, 1 and −2^100 in either order round to 1.0. -/
theorem test_lacc :
    let sum (l : List Nat) : Nat := ((l.foldl (fun a x => a.addF (FV.dec .fp32 x)) Lacc.zero).round .fp32 .rne).1
    sum [0x71800000, 0x3F800000, 0xF1800000] = 0x3F800000 ∧ sum [0x71800000, 0xF1800000, 0x3F800000] = 0x3F800000 := by decide +kernel

/-- The example after R43: G4 code −3 with scale 0.25 is W12 0xB_F400. -/
theorem test_group_weight : (groupW (-3) 0x3E80).1 = 0xBF400 := by decide +kernel

/-- The example after R165: the row sum in the fixed order. -/
theorem test_vredr :
    let l := (List.range 64).map fun c => lane [(0, 8, if c = 0 then 0x4B800000 else if c = 1 ∨ c = 33 then 0x3F800000 else 0)]
    laneRd (laneAfter (.vredr ⟨0, .fp32, .add, ⟨64, .w32⟩, .sl ⟨0, .w32⟩⟩) (onDie (dieOf l) pk) 3) 64 8 = 0x4B800001 := by decide +kernel

/-- The example after R196 and R198: the local address 0x4_0123_4580 is offset 0x0123_4580 of this die; 0x1_8000_0100 is offset 0x100 of CD24. -/
theorem test_vault_address :
    let s := onDie (dieOf []) pk
    s.vaultTarget 0x401234580 = (none, 0x01234580) ∧ s.vaultCause 16 0x401234580 = none ∧ (s.vaultTarget 0x180000100).1.isSome = true ∧
      (s.vaultTarget 0x180000100).2 = 0x100 ∧ s.vaultCause 16 0x180000100 = some 0x0106 := by decide +kernel

/-- The example after R208: column block 5 of matrix rows 0 to 3 lies in banks 5, 4, 7 and 6. -/
theorem test_swizzle : (List.range 4).map (fun r => swizzle 32 0 (4096 * r + 128 * 5) / 128 % 32) = [5, 4, 7, 6] := by decide +kernel

/-- The example after R232 on four lanes: lane L receives L, and the word ends at 4. -/
theorem test_vamo :
    let s := onDie (dieOf (List.replicate 4 (lane [(0, 8, 1)]))) (pkW [(9, 0x400000200), (0, 0)])
    let i : Instr := .vamo ⟨0, ⟨8, .w32⟩, ⟨0, .w32⟩, .x 0, 9, 0, .add, false⟩
    (List.range 4).map (fun p => laneRd (laneAfter i s p) 8 8) = [0, 1, 2, 3] ∧ (after (exec i s)).dx.padRd 0x200 4 = 4 := by decide +kernel

/-- The row and the slices of the example after R147: stream row 19 goes to lanes 384 on. -/
theorem test_mmul_row : cName 0x1000000000000000 0 (19 / 8) = 272 ∧ 19 % 8 * 128 = 384 := by decide +kernel

/-- A launch on a single-stream gang of the first n dies. -/
def gangOf (n : Nat) : State := base.updCx fun x => { x with lrec := BitVec.ofNat 512 ((2 ^ n - 1) * 2 ^ 320 + 2 ^ 214), gparts := List.range n }

/-- A gathering operation of a gang whose dies have reported. -/
def reported (k : GKind) (l : List (W64 × List FeLog)) : State :=
  let s := (gangOf l.length).updCx fun x => { x with gathers := [⟨7, k, List.range l.length, 0, 0, []⟩], pendX := [(9, 7), (6, 7), (7, 7)] }
  (List.range l.length).foldl (fun s d => s.setDie d { dieOf [] with reps := [⟨7, 0, true, (l.getD d default).1, 0, (l.getD d default).2⟩] }) s

/-- The example after R404: RED.fsum of 2^100, 1.0, −2^100 and 0.5 is 1.5. -/
theorem test_red_fsum :
    xAfter (.responseReport 0) (reported (.red .fsum 9) [(0x71800000, []), (0x3F800000, []), (0xF1800000, []), (0x3F000000, [])]) 9 =
      0x3FC00000 := by decide +kernel

/-- The example after R341: the earliest of three logs, with the sticky flags of all. -/
theorem test_felog :
    let q1 : FeLog := { valid := true, bsn := 900, slot := 1, kind := 1, sovf := true, addr := 0x300 }
    let q3 : FeLog := { valid := true, bsn := 900, slot := 1, kind := 0, sinv := true, addr := 0x300 }
    let q0 : FeLog := { valid := true, bsn := 870, slot := 2, kind := 3, sunf := true, addr := 0x200 }
    let t := after (exec (.responseReport 0) (reported (.felog 6 7) [(0, [q1]), (0, [q3, q0])]))
    t.cx.sc.getX 7 = 0x200 ∧ t.cx.sc.getX 6 = 0xAF40000000000366 := by
  decide +kernel

/-! ### States and operands that meet the hypotheses of each statement, at the boundaries of its clauses -/

/-- Low memory is plain. -/
theorem plain_low {s : State} {a n : Nat} (h : a + n ≤ bellBase) (hp : s.portsDown = []) : Plain s a n := by
  intro k hk
  refine ⟨?_, fun p _ => by rw [hp]; rfl⟩
  have : ¬bellBase ≤ a + k := by omega
  simp [isBell, this]

/-- The leaf that maps the first GiB in `base`. -/
def leaf0 : TlbE := ⟨0, 1, 0, 0, false, true, true, true⟩

/-- `base` translates an address of the first GiB to itself, for every access. -/
theorem base_translates :
    isOk (base.translate [] (base.ctxXlat 0) .load false 0x3FFFFFF8) (0x3FFFFFF8, leaf0) = true ∧
      isOk (base.translate [] (base.ctxXlat 0) .store false 0x3FFFFFF8) (0x3FFFFFF8, leaf0) = true ∧
      isOk (base.translate [] (base.ctxXlat 0) .store true 0x3FFFFFF8) (0x3FFFFFF8, leaf0) = true ∧
      isOk (base.translate [] (base.ctxXlat 0) .atomic true 0x3FFFFFF8) (0x3FFFFFF8, leaf0) = true := by decide +kernel

theorem meets_EncodingRoundTrip : (Instr.exit 0xFFFF).wf = true ∧ 0 ∈ slotsOf (.exit 0xFFFF) ∧
    (Instr.vadd ⟨15, .s32, ⟨504, .w32⟩, .c 63, .die⟩).wf = true ∧ 2 ∈ slotsOf (.vadd ⟨15, .s32, ⟨504, .w32⟩, .c 63, .die⟩) := by decide +kernel

theorem meets_DecodingSound : decodeSlot 7 0x0124800000000000 = .ok (.twait ⟨1, 9, 0, 0⟩) ∧
    decodePacket 0x0C = some (.phase ⟨0, 0, false, .part, false, false⟩) :=
  ⟨ok_of (by decide +kernel), by decide +kernel⟩

/-- A NaN, zeros of both signs, and each relation. -/
theorem meets_ScalarFloatResults :
    (let s := regs [(6, 0x7F800001), (7, 0x80000000)]
     0x7F800000 < (s.x 6).toNat % 2 ^ 32 % 2 ^ 31 ∧ (s.x 7).toNat % 2 ^ 32 % 2 ^ 31 = 0 ∧ (s.x 0).toNat % 2 ^ 32 % 2 ^ 31 = 0) ∧
    (FRel.un, VRel.un) ∈ [(FRel.eq, VRel.eq), (.ne, .ne), (.lt, .lt), (.le, .le), (.un, .un)] := by decide +kernel

theorem meets_ScalarFrame : scalarOp (.movqSetall 3) = true ∧ scalarOp (.fcvt .s64fp32 true .dyn 0 0) = true := by decide +kernel

/-- An outcome is a next state. -/
def isNext (o : Host.Outcome State Fault Refusal) : Bool :=
  match o with
  | .next _ => true
  | _ => false

theorem next_after {o : Host.Outcome State Fault Refusal} (h : isNext o = true) : o = .next (after o) := by
  cases o <;> first | rfl | cases h

theorem meets_StepKeepsMemoryForm : Memory.wf (base.withFetchWord 512 0).mem = true ∧
    step (base.withFetchWord 512 0) = .next (after (step (base.withFetchWord 512 0))) :=
  ⟨by decide +kernel, next_after (by decide +kernel)⟩

/-- A load at the top of SLM; a store of the first byte above the launch record. -/
theorem meets_LocalMemoryResults :
    ((base.x 0 + (0x3FFF8 : BitVec 32).signExtend 64).toNat % MSize.b8.bytes = 0 ∧
      (base.x 0 + (0x3FFF8 : BitVec 32).signExtend 64).toNat + MSize.b8.bytes ≤ base.slmSize ∧ base.cx.spec = none) ∧
    (base.x 0 + (64 : BitVec 32).signExtend 64).toNat % MSize.b1.bytes = 0 ∧ 64 ≤ (base.x 0 + (64 : BitVec 32).signExtend 64).toNat ∧
      base.cx.seg.closing = none := by decide +kernel

/-- SLM_ALIGN, SLM_RANGE and SLM_RO; GLOBAL_RANGE, GLOBAL_ALIGN and GLOBAL_FAULT; MISALIGNED_PC, LOOP_MARK and LOOP_DEPTH. -/
theorem meets_SequencerTraps :
    ((base.x 0 + (0x3FFFF : BitVec 32).signExtend 64).toNat % MSize.b2.bytes ≠ 0) ∧
    ((base.x 0 + (0x40000 : BitVec 32).signExtend 64).toNat % MSize.b1.bytes = 0 ∧
      base.slmSize < (base.x 0 + (0x40000 : BitVec 32).signExtend 64).toNat + MSize.b1.bytes) ∧
    ((base.x 0 + (63 : BitVec 32).signExtend 64).toNat + MSize.b1.bytes ≤ base.slmSize ∧ (base.x 0 + (63 : BitVec 32).signExtend 64).toNat < 64) ∧
    2 ^ 56 ≤ ((regs [(6, 0x100000000000000)]).x 6).toNat ∧
    (((regs [(6, 0xFFFFFFFFFFFFFF)]).x 6).toNat < 2 ^ 56 ∧ ((regs [(6, 0xFFFFFFFFFFFFFF)]).x 6).toNat % 8 ≠ 0) ∧
    ((0x40000000 : Nat) < 2 ^ 56 ∧ 0x40000000 % 8 = 0 ∧ base.cur.side = .seq) ∧
    (((regs [(6, 1)]).x 6).toNat % 64 ≠ 0) ∧
    ((-1 : BitVec 30).toInt < 1 ∧ 1 ≤ (1 : BitVec 30).toInt ∧
      ({ base.cx with pc := -64 }.pc + (1 : BitVec 30).signExtend 56 * 64 : VA).toNat < (({ base.cx with pc := -128 } : Ctx).pc + 64).toNat) ∧
    ((base.cx.pc + 64).toNat ≤ (base.cx.pc + (1 : BitVec 30).signExtend 56 * 64 : VA).toNat ∧
      4 ≤ (base.updCx fun x => { x with loops := List.replicate 4 ⟨1, 0, 0, 0⟩ }).cx.loops.length) := by decide +kernel

theorem meets_SequencerTraps_walk (acc : AccK) (bell : Bool) : base.translate base.cx.tlb (base.ctxXlat base.cur.ctx) acc bell 0x40000000 = .error 0x11 := by
  cases acc <;> cases bell <;> exact err_of (by decide +kernel)

theorem meets_GlobalAccessIssue :
    base.cx.spec = none ∧ base.cx.seg.closing = none ∧ 0x3FFFFFF8 < 2 ^ 56 ∧ 0x3FFFFFF8 % 8 = 0 ∧
      base.translate base.cx.tlb (base.ctxXlat base.cur.ctx) .load false 0x3FFFFFF8 = .ok (0x3FFFFFF8, leaf0) ∧
      base.translate base.cx.tlb (base.ctxXlat base.cur.ctx) .store false 0x3FFFFFF8 = .ok (0x3FFFFFF8, leaf0) ∧
      base.translate base.cx.tlb (base.ctxXlat base.cur.ctx) .atomic true 0x3FFFFFF8 = .ok (0x3FFFFFF8, leaf0) ∧
      (base.cx.port.filter fun a => a.op.isStore == false).length < 16 ∧ (base.cx.port.filter fun a => a.op.isStore == true).length < 32 :=
  ⟨by decide +kernel, by decide +kernel, by decide, by decide, ok_of (by decide +kernel), ok_of (by decide +kernel), ok_of (by decide +kernel),
    by decide +kernel, by decide +kernel⟩

/-- `base` with one access in the port of context 0. -/
def porting (a : SAcc) : State := base.updCx fun x => { x with port := [a] }

theorem meets_GlobalAccessPerformed (op : SOp) (h : op = .load true 5 ∨ op = .store 7 ∨ op = .amo .cas 5 1 2) :
    let a : SAcc := ⟨0, 0x30000, 0x30000, 8, false, op, false⟩
    let s := porting a
    (s.ctx 0).port[0]? = some a ∧ portFree (s.ctx 0).port 0 = true ∧ (s.ctx 0).sigFree a = true ∧ Plain s a.pa a.size ∧
      s.poisonIn a.pa a.size = false ∧ (s.ctx 0).spec = none ∧ 0 < a.size := by
  rcases h with rfl | rfl | rfl <;>
    exact ⟨by decide +kernel, by decide +kernel, by decide +kernel, plain_low (by decide) (by decide +kernel), by decide +kernel, by decide +kernel, by decide⟩

/-- A branch taken and not; an aligned register; a loop of one bundle, with a count and without. -/
theorem meets_TransferResults :
    Cond.holds .eq (base.x 0) (base.x 0) = true ∧ Cond.holds .ne (base.x 0) (base.x 0) = false ∧ base.q 0 ≠ false ∧ base.q 0 = true ∧
      ((regs [(6, 0xFFFFFFFFFFFFC0)]).x 6 |>.setWidth 56 : VA).toNat % 64 = 0 ∧
      1 ≤ (1 : BitVec 30).toInt ∧ base.cx.pc.toNat + 64 ≤ (base.cx.pc + (1 : BitVec 30).signExtend 56 * 64 : VA).toNat ∧ base.cx.loops.length < 4 ∧
      (base.x 0).setWidth 32 = (0 : BitVec 32) ∧ ((regs [(6, 0xFFFFFFFF)]).x 6).setWidth 32 ≠ (0 : BitVec 32) := by decide +kernel

theorem meets_TrapEntry : base.cx.spec = none ∧ ({ base with cur := { Cur.reset with ctx := purser } } : State).cx.spec = none := by decide +kernel

/-- `base` in the innermost loop given. -/
def looping (e : LoopE) : State := base.updCx fun x => { x with loops := [e] }

theorem meets_NoOperationResult :
    let e : LoopE := ⟨1, 0x1FFC0, 0x20000, 0⟩
    (looping e).cx.loops = [e] ∧ e.e = (looping e).cx.pc ∧ e.count = 1 ∧
      ({ e with count := 0 }).count ≠ 1 ∧ (looping { e with e := 0x20040 }).cx.loops = [{ e with e := 0x20040 }] ∧ (0x20040 : VA) ≠ base.cx.pc := by
  decide +kernel

/-- `ADD x5, x6, x7` as the next bundle of context 0. -/
def adding : State := base.withFetchWord 512 (0x00010451800700000000000000000000 * 2 ^ 384)

theorem adding_waits_not : (adding.ctx 0).pendX = [] := by decide +kernel

theorem meets_StepRunsTheDecoded :
    let s := adding
    let s0 : State := { s with agenda := [], cur := { Cur.reset with ctx := 0 } }
    let b : Bundle := ⟨false, false, false, false, 0, [(0, .add 5 6 7)]⟩
    let s1 := (s0.updCtx 0 Ctx.running).keepLine 0 (s0.bundleAt 0x20000)
    let s2 := s1.updCtx 0 fun x => { x with pendX := x.pendX.filter fun e => !(sDest (.add 5 6 7)).toList.contains e.1 }
    s.agenda = [.run 0] ∧ s.mayIssue 0 = true ∧ (s.ctx 0).mismatch = false ∧ (s.ctx 0).bad = [] ∧ (s.ctx 0).cachedLine (s.ctx 0).pc.toNat (s.ctxXlat 0).job = none ∧
      s.translate (s.ctx 0).tlb (s.ctxXlat 0) .fetch true (s.ctx 0).pc.toNat = .ok (0x20000, leaf0) ∧ s.poisonIn 0x20000 64 = false ∧
      decodeBundle (s0.bundleAt 0x20000) = .ok b ∧ b.slots = [(0, .add 5 6 7)] ∧ b.rv = false ∧ (s.ctx 0).loops = [] ∧
      (s.ctx 0).seg.rewind = none ∧ (∀ w ∈ (s.ctx 0).pendX, w.1 ∉ sReads (.add 5 6 7)) ∧
      (s.ctx 0).bsn ≠ BitVec.allOnes 48 ∧ 0 ∈ slotsOf (.add 5 6 7) ∧
      exec (.add 5 6 7) (s1.enterSeq s1 0 0 (s1.packetFor b)) = .next (after (exec (.add 5 6 7) (s1.enterSeq s1 0 0 (s1.packetFor b)))) ∧
      (after (exec (.add 5 6 7) (s1.enterSeq s1 0 0 (s1.packetFor b)))).cur.trap = none ∧
      (after (exec (.add 5 6 7) (s1.enterSeq s1 0 0 (s1.packetFor b)))).cur.stalled = false ∧
      exec (.add 5 6 7) (s2.enterSeq s1 0 0 (s1.packetFor b)) = .next (after (exec (.add 5 6 7) (s2.enterSeq s1 0 0 (s1.packetFor b)))) :=
  ⟨by decide +kernel, by decide +kernel, by decide +kernel, by decide +kernel, by decide +kernel, ok_of (by decide +kernel), by decide +kernel, ok_of (by decide +kernel),
    rfl, rfl, by decide +kernel, by decide +kernel, fun w hw => (List.eq_nil_iff_forall_not_mem.1 adding_waits_not w hw).elim,
    by decide +kernel, by decide +kernel, next_after (by decide +kernel), by decide +kernel, by decide +kernel,
    next_after (by decide +kernel)⟩

/-- An act of the agenda that is an instruction of the table. -/
theorem meets_StepRunsTheDecoded_event :
    let s : State := { base with agenda := [.ev .throttlePoint] }
    s.agenda = [.ev .throttlePoint] ∧ exec .throttlePoint { s with agenda := [] } = .next (after (exec .throttlePoint { s with agenda := [] })) :=
  ⟨rfl, next_after (by decide +kernel)⟩

theorem meets_ResetState : Lane.zero ∈ (State.reset.die 63).regs.lanes :=
  List.mem_replicate.2 ⟨by decide, rfl⟩

/-- A die of some lanes that its mask enables, with packets in its queue. -/
def queued (q : List Packet) : State :=
  base.setDie 0 { dieOf [lane [(0, 8, 5)]] with regs := { (dieOf [lane [(0, 8, 5)]]).regs with dmask := 1 }, queue := q }

theorem meets_TreeTrafficAndDieIssue :
    (let s := base.updCx fun x => { x with wire := [(1, pk), (0, pk)], credits := [0] }
     (s.ctx 0).wire = [(1, pk)] ++ (0, pk) :: [] ∧ (∀ e ∈ [(1, pk)], e.1 ≠ 0) ∧ 0 ∈ (s.ctx 0).credits) ∧
    ∀ p ∈ [pk, { pk with slots := [(1, .vmov ⟨0, .n32, ⟨8, .w32⟩, .sl ⟨0, .w32⟩⟩)] }],
      let s := queued [p]
      s.driver 0 = some 0 ∧ (s.die 0).queue = p :: [] ∧ s.noIssue 0 = false ∧ (s.die 0).held = false ∧ (s.die 0).redo = none ∧ p.replay = none ∧
        (s.die 0).passed p = false ∧ s.enabled 0 = true ∧ (s.die 0).parity = [] ∧ (s.die 0).bad = [] ∧ p.isPerm = false ∧
        let h := s.takeHead 0 p
        let u := (h.enterDie 0 p ((s.die 0).turned p) none).runSlots p.slots
        (h.die 0).interlocked ((s.die 0).turned p) p p.slots = false ∧ u.cur.stalled = false ∧ u.cur.failed = [] := by
  decide +kernel

/-- Two views that cover a name, the lower first; no view that covers it; the views' ends; registers whose views are all well formed. -/
theorem meets_LaneRegisters :
    let v := w64 (3 * 2 ^ 61 + 64 * 2 ^ 52 + 32 * 2 ^ 42 + 8 * 2 ^ 33)
    let s := onDie (dieOf [Lane.zero]) pk
    s.cur.pkt = some pk ∧ s.driver s.cur.die = some 0 ∧ (∀ n ∈ [63, 96], ¬(vwKind v = 3 ∧ vwBase v ≤ n ∧ n < vwBase v + vwP1 v)) ∧
      (∀ n ∈ [64, 95], vwKind v = 3 ∧ vwBase v ≤ n ∧ n < vwBase v + vwP1 v) ∧ vwOk v = true ∧ vwKind v = 3 ∧ vwOk 0 = true ∧ (7 : PIdx).toNat < 8 ∧ 8 ≤ (8 : PIdx).toNat ∧
      [0, 511].Nodup ∧ (∀ k ∈ [0, 511], k < 512) := by refine ⟨?_, ?_, ?_, ?_, ?_, ?_, ?_, ?_, ?_, ?_, ?_⟩ <;> decide +kernel

/-- Types of both kinds. -/
theorem meets_VectorIntegerResults : ETy.s8.isF = false ∧ ETy.n64.isF = false := by decide +kernel
theorem meets_VectorFloatResults : ETy.fp8a.isF = true ∧ ETy.fp32.isF = true := by decide +kernel

theorem meets_AccumulatorAndViewResults :
    let s := onDie (dieOf [Lane.zero]) pk
    let t := onDie { dieOf [] with regs := { (dieOf []).regs with qmask := 0 } } pk
    s.dsrc.qmask ≠ 0 ∧ s.cur.side = .die ∧ t.dsrc.qmask = 0 ∧ base.cur.side = .seq ∧
      vwOk ((regs [(6, w64 (3 * 2 ^ 61 + 2 ^ 42))]).x 6) = true ∧ vwOk ((regs [(6, w64 (3 * 2 ^ 61))]).x 6) = false := by decide +kernel

/-- The least FP32 subnormal; accumulators with a NaN, both infinities, a carry out of the range, one infinity, zero and not zero. -/
theorem meets_AccumulatorAndViewResults_sum :
    (ETy.fp32.isF = true ∧ FV.dec (fmtOf .fp32) 1 = .fin false 1 (-149)) ∧ (-160 : Int) ≤ -160 ∧
      ({ nan := true } : Lacc).nan = true ∧ (({ pinf := true, ninf := true } : Lacc).nan = false ∧ ({ pinf := true, ninf := true } : Lacc).pinf = true) ∧
      (let num (l : Lacc) : Bool := !l.nan && !(l.pinf && l.ninf)
       (num { ovf := true } = true ∧ num { pinf := true } = true ∧ num { ninf := true } = true ∧ num { val := 1 } = true) ∧
         ({ val := 1 } : Lacc).val ≠ 0 ∧ Lacc.zero.val = 0) := by decide +kernel

/-- A result in flight. -/
def flightOf (y : Die) : Flight := { bsn := 9, addr := 0, slot := 1, load := false, qm := 1, ws := 255, pw := 0, lanes := y.regs.lanes.map fun _ => putSlices [0] 7, dcs := [(1, 5)], evs := [] }

/-- A write past the lanes; the earliest event by BSN, by slot, by kind, and a later one. -/
theorem meets_ResultLanding :
    (let f := flightOf (dieOf [Lane.zero])
     let s := base.setDie 0 { dieOf [Lane.zero] with flights := [f] }
     (s.die 0).flights[0]? = some f ∧ f.load = false ∧ (s.die 0).mayLand f.bsn f.ws = true ∧ { f with load := true }.load = true ∧ (s.die 0).regs.lanes[0]? = some Lane.zero ∧
       f.lanes[0]? = some (putSlices [0] 7) ∧ f.lanes[1]? = none ∧ f.evs = [] ∧ f.dcs = [(1, 5)]) ∧
    ({ unf := true } : Ev).any = true ∧ ({} : Ev).any = false ∧
      (let l : FeLog := { valid := true, bsn := 9, slot := 2, kind := 3 }
       (8 : BitVec 48).toNat < l.bsn.toNat ∧ (9 : BitVec 48) = l.bsn ∧ 1 < l.slot ∧ l.slot < 3 ∧ l.bsn.toNat < (10 : BitVec 48).toNat) := by decide +kernel

/-- Of the bundle of a result, a multiply with rows still to latch, and one that adds to slices that the result writes. -/
def mmulOf (add : Bool) (latched : List (List (Nat × List Nat))) (next : Nat) : MMulOp :=
  ⟨9, 0, 4, .bf16, add, 2, 1, [[0, 1]], [List.range 8], [], [], latched, next, [], [], [], []⟩

theorem meets_ResultLanding_waits : ∀ o ∈ [mmulOf false [[]] 0, mmulOf true [[], []] 0],
    let y := { dieOf [Lane.zero] with mmuls := [o] }
    y.mayLand (flightOf y).bsn (flightOf y).ws = false := by decide +kernel

/-- FP16: NaN, infinities, zeros of both signs, the least subnormal and the value below −0 next to it, one. -/
theorem meets_RoundingAndSpecialValues :
    Fmt.fp16 ∈ [Fmt.fp8b, .bf16, .fp16, .fp32] ∧ Fmt.fp16 ∈ [Fmt.bf16, .fp16, .fp32] ∧ (∃ k e, FV.dec .fp16 0x8001 = .fin true (k + 1) e) ∧
      Fmt.fp16.bias * 2 ^ Fmt.fp16.fbits = 0x3C00 ∧ FV.dec .fp16 0x7E00 = .nan ∧ FV.dec .fp16 0x7C00 = .inf false ∧ FV.dec .fp16 0xFC00 = .inf true ∧
      (∃ e, FV.dec .fp16 0 = .fin false 0 e) ∧ (∃ e, FV.dec .fp16 0x8000 = .fin true 0 e) ∧ ∃ e, FV.dec .fp16 1 = .fin false (0 + 1) e :=
  ⟨by decide, by decide, ⟨0, _, rfl⟩, by decide, by decide +kernel, by decide +kernel, by decide +kernel, ⟨_, rfl⟩, ⟨_, rfl⟩, ⟨_, rfl⟩⟩

/-- A die with a READY tile of the size of a block. -/
def tiled (t : Tile) : Die := { dieOf [] with tiles := Tbl.set {} [] 7 t }

/-- An ATILE view of BF16 and an ACC view (R131). -/
def aView : W64 := w64 (2 ^ 61 + 3 * 2 ^ 49)
def cView : W64 := w64 (2 ^ 62)

/-- A block at offset 0 that fills its tile; an MMUL with its views, with the exchange and without; the M-slot order empty and not. -/
theorem meets_MatrixIssue :
    (let s := onDie (tiled { st := .ready, size := 8 }) (pkW [(10, 0), (11, 0)])
     let y := s.dx
     y.mq = [] ∧ y.pend 2 = false ∧ (∀ k ∈ Toks.named ⟨1, 3, 0, 0⟩, y.pend k = false) ∧ (y.tile 7).st = .ready ∧
       WTy.grouped .bf16 = false ∧ (∀ q < 4, s.dsrc.qmask.getLsbD q = true → ((s.px 10).toNat % 2 ^ 32 + q * ((s.px 10).toNat / 2 ^ 32)) % 64 = 0 ∧
         (s.px 10).toNat % 2 ^ 32 + q * ((s.px 10).toNat / 2 ^ 32) + WTy.blockBytes .bf16 ≤ (y.tile 7).bytes) ∧ y.vpoison = []) ∧
    (let s := onDie { dieOf [] with regs := { (dieOf []).regs with views := [0, aView, cView] } } pk
     mviewOk .bf16 (s.dsrc.views.getD 1 0) (s.dsrc.views.getD 2 0) = true ∧ s.dx.mq = [] ∧ s.dx.pend 4 = false ∧
       s.dx.parity = [] ∧ (∀ r ∈ s.dx.arrs, r.badA = false ∧ r.badS = false)) ∧
    (onDie { dieOf [] with toks := (List.replicate 64 false).set 4 true } pk).dx.pend 4 = true ∧
    (onDie { dieOf [] with mq := [.zero 1] } pk).dx.mq ≠ [] := by decide +kernel

/-- A load at the head of the M-slot order, alone and before another of its tile; a row that is the last and one that is not. -/
theorem meets_MatrixCompletion :
    (let s := base.setDie 0 { dieOf [] with mq := [.load 9 0 2 7 [(0, [])] [] []] }
     (s.die 0).mq = .load 9 0 2 (7 : BitVec 8).toNat [(0, [])] [] [] :: [] ∧ (∀ qm, ([] : List MItem).head? ≠ some (.zero qm)) ∧
       (s.die 0).arrs[0]? = some Arr.reset ∧ [((0 : Nat), ([] : Plane))].find? (fun e => e.1 == 0) = some (0, [])) ∧
    ∀ n ∈ [0, 1],
      let o : MMulOp := mmulOf true [[], []] n
      let s := base.setDie 0 { dieOf [Lane.zero] with mmuls := [o] }
      (s.die 0).mmuls[0]? = some o ∧ mmulFree (s.die 0).mmuls 0 = true ∧ o.bad = [] ∧ o.hurt = [] ∧ (s.die 0).parity = [] ∧ o.clip = [] ∧ o.next < o.latched.length := by
  refine ⟨⟨by decide +kernel, (by intro _ h; cases h), by decide +kernel, by decide +kernel⟩, by decide +kernel⟩

/-- Four lanes at adjacent words up to the last of the scratchpad; a scoreboard with room for one line, and one without. -/
theorem meets_VaultAccessResults :
    let s := onDie (dieOf (List.replicate 4 Lane.zero)) (pkW [(9, 0x407FFFFF0)])
    let ad (pos : Nat) : Int := laneAt s 9 2 .lane 0 pos
    s.dx.vpoison = [] ∧ actives s 0 = [0, 1, 2, 3] ∧ (∀ pos ∈ actives s 0, s.vaultCause 4 (ad pos) = none ∧ (s.vaultTarget (ad pos)).1 = none) ∧
      (∀ p ∈ actives s 0, ∀ q ∈ actives s 0, p ≠ q →
        (ad p).toNat % 2 ^ 28 + 4 ≤ (ad q).toNat % 2 ^ 28 ∨ (ad q).toNat % 2 ^ 28 + 4 ≤ (ad p).toNat % 2 ^ 28) ∧
      (∀ p ∈ actives s 0, ad p + 4 ≤ 0x408000000) ∧ ad 3 + 4 = 0x408000000 ∧
      RoomFor s (actives s 0) (fun pos => (ad pos).toNat % 2 ^ 28) ∧
      ∀ n ∈ [255, 256], RoomFor (s.setDie 0 { s.dx with flights := [{ flightOf s.dx with bsn := 8, load := true, tags := [n] }] }) (actives s 0)
        (fun pos => (ad pos).toNat % 2 ^ 28) ↔ n = 255 := by decide +kernel

/-- Each cause of a vault address at the end of its range. -/
theorem meets_DieCauses_vault :
    let s := onDie (dieOf []) pk
    let gang (a : Int) : Bool := (lDieMask (s.ctx 0).lrec).getLsbD (a.toNat / 2 ^ 28 % 64)
    s.driver s.cur.die = some 0 ∧ (-1 : Int) < 0 ∧ (2 ^ 35 : Int) ≤ 2 ^ 35 ∧
      (Nat.testBit 0x410000000 34 = true ∧ 0x410000000 / 2 ^ 28 % 64 ≠ 0) ∧
      (Nat.testBit 0x407FFFFFF 34 = true ∧ s.padSize 0 < 0x407FFFFFF % 2 ^ 28 + 2 ∧ ¬s.padSize 0 < 0x407FFFFFF % 2 ^ 28 + 1 ∧ 0x407FFFFFF / 2 ^ 28 % 64 = 0) ∧
      (Nat.testBit 0x3F0000000 34 = false ∧ gang 0x3F0000000 = false) := by decide +kernel

/-- This die named by its number: one byte past its scratchpad, and the last byte of it. -/
theorem meets_DieCauses_gang :
    let s := { gangOf 2 with cur := { Cur.reset with side := .die } }
    Nat.testBit 0x08000000 34 = false ∧ (lDieMask (s.ctx 0).lrec).getLsbD (0x08000000 / 2 ^ 28 % 64) = true ∧ s.cdn s.cur.die = 0x08000000 / 2 ^ 28 % 64 ∧
      s.padSize s.cur.die < 0x08000000 % 2 ^ 28 + 1 ∧ ¬s.padSize s.cur.die < 0x07FFFFFF % 2 ^ 28 + 1 := by decide +kernel


/-- A descriptor record: one dimension of 16 elements of 8 bytes at 0x30000, of a direction. -/
def recD (dir : Nat) : BitVec 512 := BitVec.ofNat 512 (dir * 2 ^ 455 + 3 * 2 ^ 451 + 2 ^ 448 + 16 * 2 ^ 168 + 2 ^ 128 + 0x30000)

/-- Descriptor slot 3 valid, tile 7 as told, tokens as told. -/
def copying (dir : Nat) (t : Tile) : Die := { tiled t with descs := Tbl.set {} [] 3 ⟨some (recD dir), 0⟩ }

/-- Boxes of one element: at the origin, and outside the one dimension. -/
def copyPk (xo xb : W64) : Packet := pkW [(6, xo), (7, xb)]

/-- Nothing holds a copy with token 5 and tile 7. -/
def copyGoes (y : Die) : Bool := !y.pend 5 && decide (y.inFlight < 512) && !(y.tile 7).busy && !(y.tile 7).pend && (y.tile 7).st != .filling

/-- A wait for a token, a busy engine tile and an undefined tile; each cause where the causes before it do not hold. -/
theorem meets_DieCauses_copy :
    let full : Tile := { st := .ready, size := 1 }
    ((copying 3 full).setTok 5 true).pend 5 = true ∧ ((copying 3 { full with busy := true }).tile 7).busy = true ∧
      (((copying 3 { full with st := .empty, pend := true }).tile 7).st = .empty ∧ ((copying 3 { full with st := .empty, pend := true }).tile 7).pend = true) ∧
      (copyGoes (tiled full) = true ∧ (tiled full).desc 3 = none) ∧
      (copyGoes (copying 2 full) = true ∧ (copying 2 full).desc 3 = some (recD 2) ∧ dDir (recD 2) &&& 1 = 0) ∧
      (copyGoes (copying 1 full) = true ∧ (copying 1 full).desc 3 = some (recD 1) ∧ dDir (recD 1) &&& 2 = 0) ∧
      (copyGoes (copying 3 full) = true ∧ dDir (recD 3) = 3 ∧ boxBad (recD 3) 0 0x100000 = true) ∧ boxBad (recD 3) 0 0 = false ∧
      (copyGoes (copying 3 { full with st := .empty }) = true ∧ ((copying 3 { full with st := .empty }).tile 7).st = .empty) ∧
      (((copying 3 full).tile 7).bytes < boxT 0x10000000000000 + dEsz (recD 3) * boxSize 0x10000000000000 ∧
        ¬((copying 3 full).tile 7).bytes < boxT 0xFC00000000007 + dEsz (recD 3) * boxSize 0xFC00000000007) := by decide +kernel

/-- The last element of a tile; the last spill slice of the area; a touched line. -/
theorem meets_TileAndSpillResults :
    let s := onDie { tiled { st := .ready, size := 1 } with regs := { (dieOf []).regs with lanes := [Lane.zero] } } (pkW [(5, 4094), (3, 4095)])
    let o (pos : Nat) : Nat := (s.px 5).toNat % 2 ^ 32 + s.val .n32 .quad pos (s.laneAt pos) * 32 + pos % 64 * 2 ^ (0 + 6) + 2 * (pos % 1024 / 64)
    (s.dx.tile 7).st = .ready ∧ s.dx.vpoison = [] ∧ RoomFor s (actives s 0) o ∧ RoomFor s (actives s 0) (fun pos => 2048 * pos + 4095 / 2) ∧ s.dx.sbad = [] ∧ actives s 0 = [0] ∧ (∀ pos ∈ actives s 0, o pos % 2 = 0 ∧ o pos + 2 ≤ (s.dx.tile 7).bytes) ∧
      (0 : BitVec 12).toNat + (s.px 3).toNat + (0 : BitVec 9).toNat ≤ 4095 ∧ s.dx.vitrine = [] ∧
      (let v := s.setDie 0 { s.dx with flights := [{ flightOf s.dx with bsn := 8, load := true, tags := [256] }] }
       ¬RoomFor v (actives s 0) o ∧ ¬RoomFor v (actives s 0) (fun pos => 2048 * pos + 4095 / 2)) ∧
      let u := onDie (dieOf [Lane.zero]) (pkW [(9, 0x30000)])
      actives u 0 = [0] ∧ laneAt u 9 2 .lane 0 0 = 0x30000 ∧ isOk (u.translate u.dx.tlb (u.dieXlat u.cur.die) .load false 0x30000) (0x30000, leaf0) = true ∧
        u.cached u.cur.die 0x30000 false = true ∧ u.dx.cbad 0x30000 = false ∧ u.poisonAt 0x30000 = false ∧ u.poisonAt (0x30000 + 64) = false ∧ u.dx.cpoison = [] := by
  decide +kernel

theorem meets_TileAndSpillResults_clean (x : Nat) : (onDie (dieOf [Lane.zero]) (pkW [(9, 0x30000)])).poisonAt x = false := by
  have e : (onDie (dieOf [Lane.zero]) (pkW [(9, 0x30000)])).poison = [] := by decide +kernel
  have f : (onDie (dieOf [Lane.zero]) (pkW [(9, 0x30000)])).portsDown = [] := by decide +kernel
  unfold State.poisonAt
  rw [e, f]
  cases portOf x <;> rfl

/-- `base` with a speculative run on context 0, and die 0's slot V0. -/
def speculating (y : Die) (p : Packet) : State :=
  (onDie y p).updCtx 0 fun x => { x with spec := some (⟨0, ⟨0, 0, 0, 0, false⟩, [], 0, [], .running⟩ : Spec) }

/-- A page of the host window at 0x40000000. -/
def hostLeaf : TlbE := ⟨0, 1, 1, hostBase / 2 ^ 30, false, true, true, true⟩

/-- A lane at the last word below 2^56. -/
theorem meets_GlobalLaneIssue :
    let s := onDie (dieOf [Lane.zero]) (pkW [(9, 0xFFFFFFFFFFFFFC)])
    let ad (pos : Nat) : Int := laneAt s 9 2 .lane 0 pos
    s.dx.ring = [] ∧ s.dx.heldLanes = [] ∧ actives s 0 = [0] ∧ (∀ pos ∈ actives s 0, 0 ≤ ad pos ∧ ad pos < 2 ^ 56 ∧ (ad pos).toNat % 4 = 0) ∧
      s.specDie s.cur.die = false ∧ sliceSet [0, 1] ≠ 0 ∧ RoomFor s (actives s 0) (fun pos => (ad pos).toNat) ∧
      ¬RoomFor (s.setDie 0 { s.dx with flights := [{ flightOf s.dx with bsn := 8, load := true, tags := [256] }] }) (actives s 0) (fun pos => (ad pos).toNat) ∧
      (∀ pos ∈ actives s 0, s.specWindow s.cur.die (ad pos).toNat = false) ∧
      let u := speculating { dieOf [Lane.zero] with tlb := [hostLeaf] } (pkW [(9, 0x40000000)])
      u.specDie u.cur.die = true ∧ actives u 0 = [0] ∧ laneAt u 9 2 .lane 0 0 = 0x40000000 ∧ u.specWindow u.cur.die 0x40000000 = true := by decide +kernel

/-- A lane's global access, translated or not. -/
def gacc (op : LOp) (dst : List Nat) (pa : Option Nat) : GAcc := ⟨0, 9, 0, 4, 0, dst, BitVec.allOnes 2048, 0x30000, 4, true, op, pa, false, none⟩

/-- A die with a lane's access in its order. -/
def accessing (a : GAcc) : State := base.setDie 0 { dieOf [Lane.zero] with gq := [a] }

/-- A die with a clean line of its cache ways at 0x30000. -/
def caching (dirty : BitVec 128) : Die := { dieOf [Lane.zero] with cache := [⟨0x30000 / 128, 0, BitVec.allOnes 128, dirty⟩] }

theorem meets_LaneAccessPerformed :
    (let f : Flight := { flightOf (dieOf [Lane.zero]) with load := true, dcs := [] }
     let s := base.setDie 0 { dieOf [Lane.zero] with flights := [f] }
     (s.die 0).flights[0]? = some f ∧ f.load = true ∧ (s.die 0).mayLand f.bsn f.ws = true ∧ f.evs = [] ∧ f.dcs = []) ∧
    (∀ op ∈ [LOp.load, .amo .add 1 0],
      let g := gacc op [0, 1, 2, 3, 4, 5, 6, 7] (some 0x30000)
      let s := accessing g
      (s.die 0).flights = [] ∧ (s.die 0).gq[0]? = some g ∧ g.pa = some 0x30000 ∧ (s.die 0).gqFree 0 = true ∧ (s.die 0).mayLand g.bsn (sliceSet g.dst) = true ∧
        g.keep = BitVec.allOnes 2048 ∧ s.poisonIn 0x30000 g.size = false ∧ s.cached 0 0x30000 g.dev = false ∧ s.specDie 0 = false ∧
        (s.die 0).dirtyIn 0x30000 g.size = false) ∧
    (∀ op ∈ [LOp.load, .store 7],
      let g := gacc op [] (some 0x30000)
      let s := base.setDie 0 { caching 1 with gq := [g] }
      (s.die 0).gq[0]? = some g ∧ (s.die 0).gqFree 0 = true ∧ s.cached 0 0x30000 g.dev = false ∧ s.driver 0 = some 0 ∧ (s.die 0).cbad 0x30000 = false ∧
        (s.die 0).cline 0x30000 = some ⟨0x600, 0, BitVec.allOnes 128, 1⟩ ∧ 0x30000 % 128 + g.size ≤ 128) ∧
    (let g := gacc (.store 7) [] (some 0x30000)
     let s := accessing g
     (s.die 0).gq[0]? = some g ∧ g.pa = some 0x30000 ∧ g.op = .store 7 ∧ (s.die 0).gqFree 0 = true ∧ s.specDie 0 = false ∧ s.cached 0 0x30000 g.dev = false) ∧
    (let g := { gacc (.store 7) [] (some 0x3007C) with dev := false }
     let s := base.setDie 0 { caching 0 with gq := [g] }
     (s.die 0).gq[0]? = some g ∧ (s.die 0).gqFree 0 = true ∧ s.cached 0 0x3007C g.dev = true ∧ 0x3007C % 128 + g.size ≤ 128) ∧
    ∀ r ∈ [(⟨0, 9, 0, 4, 0, [0], BitVec.allOnes 2048, 1, 0x7FFFFFF, 1, .load, 0, [], 0⟩ : RAcc), ⟨0, 9, 0, 5, 0, [], BitVec.allOnes 2048, 1, 0x7FFFFFF, 1, .store 7, 0, [], 0⟩],
      let s := (gangOf 2).setDie 0 { dieOf [Lane.zero] with rq := [r] }
      (s.die 0).rq[0]? = some r ∧ rqFree (s.die 0).rq 0 = true ∧ (s.die 0).mayLand r.bsn (sliceSet r.dst) = true ∧ r.off + r.size ≤ s.padSize r.die ∧
        r.keep = BitVec.allOnes 2048 ∧ (s.die r.die).vpoison = [] ∧ r.die ≠ 0 := by decide +kernel

theorem meets_LaneAccessPerformed_plain : Plain (accessing (gacc .load [] none)) 0x30000 4 ∧ Plain (base.setDie 0 (caching 0)) 0x30000 4 :=
  ⟨plain_low (by decide) (by decide +kernel), plain_low (by decide) (by decide +kernel)⟩

/-- A page that translates, and one that does not. -/
theorem meets_WalkResults :
    (let g := gacc .load [0] none
     let s := accessing g
     s.driver 0 = some 0 ∧ (s.die 0).heldLanes = [] ∧ (s.die 0).gq = [g] ∧ (g.pa.isNone && g.va / 2 ^ 16 == 3) = true ∧
       isOk (s.translate [] (s.ctxXlat 0) g.kind g.isAmo g.va) (0x30000, leaf0) = true) ∧
    (let g := { gacc .load [0] none with va := 0x40000000 }
     let s := accessing g
     (s.die 0).gq = [g] ∧ (g.pa.isNone && g.va / 2 ^ 16 == 0x4000) = true ∧ isErr (s.translate [] (s.ctxXlat 0) g.kind g.isAmo g.va) 0x11 = true ∧
       (s.die 0).ring = [] ∧ (s.ctx 0).spec = none ∧ (s.die 0).rq = [] ∧ g.dst ≠ [] ∧ g.bad = none) ∧
    ∀ va ∈ [0x30000, 0x40000000],
      let b := { gacc .load [0] none with va := 0x50000 }
      let g := { gacc .load [0] none with va := va }
      let s := base.setDie 0 { dieOf [Lane.zero] with gq := [b, g] }
      (s.die 0).gq = b :: [g] ∧ b.pa = none ∧ b.bad = none ∧ b.va / 2 ^ 16 ≠ va / 2 ^ 16 ∧ (g.pa.isNone && g.bad.isNone && g.va / 2 ^ 16 == va / 2 ^ 16) = true := by
  decide +kernel

/-- A record at the top of SLM, one past it, and the arguments of a run that does not care for the first; a tile in use and not, at the end of the scratchpad; the codes of CSPLIT. -/
theorem meets_DescriptorTileAndSplitResults :
    (base.cur.side = .seq ∧ (0xFFF : BitVec 12).toNat * 64 + 64 ≤ base.slmSize ∧ base.cx.spec = none) ∧
    (let s := base.updCx fun x => { x with spec := some (⟨0, ⟨0, 0, 0, 0, false⟩, [], 1, [], .running⟩ : Spec) }
     s.cur.side = .seq ∧ (1 : BitVec 12).toNat * 64 + 64 ≤ s.slmSize ∧ s.cx.specSlm ((1 : BitVec 12).toNat * 64) 64 = true) ∧
    (let s : State := { base with unprot := true }
     s.cur.side = .seq ∧ s.slmSize < (0x800 : BitVec 12).toNat * 64 + 64) ∧
    (let p : Packet := { pk with desc := some (recD 3, 0) }
     let s := onDie (dieOf []) p
     s.cur.side = .die ∧ s.cur.pkt = some p ∧ p.desc = some (recD 3, 0)) ∧
    (let s := onDie (tiled { st := .ready }) pk
     (s.y0.tile 7).inUse = false ∧ (32767 : BitVec 16).toNat * 4096 + (1 : BitVec 13).toNat * 4096 ≤ s.padSize s.cur.die ∧
       s.dx.slotsDone s.pbsn = true ∧ s.splitCode (15 : BitVec 5).toNat = 0 ∧ s.splitCode (16 : BitVec 5).toNat ≠ 0 ∧ s.dx.cache = []) ∧
    ((onDie (tiled { st := .filling }) pk).y0.tile 7).inUse = true ∧
    (let s := onDie (tiled { st := .ready, size := 4096, off := 32767 }) pk
     s.dx.cache = [] ∧ ∃ e ∈ s.dx.tiles, e.2.inUse = true ∨ (e.2.size ≠ 0 ∧ 8 * s.wayBytes < e.2.base + e.2.bytes)) ∧
    (onDie (caching 0) pk).dx.cache ≠ [] := by decide +kernel

/-- A die whose mask enables it, with slot 3's descriptor and tile 7 READY. -/
def ready7 : Die := copying 3 { st := .ready, size := 1 }
def enabled7 : Die := { ready7 with regs := { ready7.regs with dmask := 1 } }

/-- A copy with a box that fills the tile to its last byte, and a multicast mask. -/
def issuing (m : W64) : State := onDie enabled7 (pkW [(6, 0), (7, 0xFC00000000007), (8, m)])

/-- A box that fills the tile; a multicast that names this die, and one that does not. -/
theorem meets_CopyIssue :
    ((issuing 1).y0.pend 5 = false ∧ (∀ k ∈ Toks.named ⟨1, 4, 0, 0⟩, (issuing 1).y0.pend k = false) ∧ (issuing 1).y0.inFlight < 512) ∧
      (Tbl.get {} (issuing 1).y0.descs (3 : BitVec 6).toNat).record = some (recD 3) ∧ (dDir (recD 3) &&& 1 ≠ 0 ∧ dDir (recD 3) &&& 2 ≠ 0) ∧
      boxBad (recD 3) ((issuing 1).px 6) ((issuing 1).px 7) = false ∧
      boxT ((issuing 1).px 7) + dEsz (recD 3) * boxSize ((issuing 1).px 7) = ((issuing 1).y0.tile 7).bytes ∧
      (((issuing 1).y0.tile 7).st = .ready ∧ ((issuing 1).y0.tile 7).busy = false ∧ ((issuing 1).y0.tile 7).pend = false) ∧
      (issuing 1).specDie (issuing 1).cur.die = false ∧ ((issuing 1).px 8).toNat < 2 ^ ((issuing 1).dieGang (issuing 1).cur.die).length ∧ (issuing 1).cur.die ∈ (issuing 1).mcastDies ((issuing 1).px 8) ∧
      (issuing 0).cur.die ∉ (issuing 0).mcastDies ((issuing 0).px 8) ∧ descCause ((issuing 0).y0.desc 3) 1 ((issuing 0).px 6) ((issuing 0).px 7) = none := by
  decide +kernel

/-- A command of the engine: one element of slot 3's record, with tile 7. -/
def cmd (k : CmdK) (started : Bool) (xo : W64) : Cmd :=
  { bsn := 9, addr := 0, kind := k, tout := 5, tile := 7, desc := recD 3, xo := xo, xb := 0, dieIdx := 0, dsel := .none, started := started, limit := 0,
    buf := none, slot := 6, field := 0, scw := [], present := 0, detached := false }

/-- No drain of a launch waits; one of a speculative run to a page of the host window does. -/
theorem meets_CopyIssue_spec (k : Cmd) : (issuing 1).specDrain (issuing 1).cur.die k = false ∧
    (let s := speculating { enabled7 with tlb := [{ hostLeaf with vpage := 0 }] } (pkW [(6, 0), (7, 0)])
     s.specDrain s.cur.die (cmd .copyOut true 0) = true ∧ (cmd .copyOut true 0).desc = recD 3 ∧ (cmd .copyOut true 0).xo = s.px 6) := by
  have h : (issuing 1).specDie (issuing 1).cur.die = false := by decide +kernel
  exact ⟨by unfold State.specDrain; rw [h]; rfl, by decide +kernel⟩

/-- A die with a command. -/
def engine (c : Cmd) : State := base.setDie 0 { tiled { st := .filling, size := 1 } with cmds := [c] }

/-- A pending fill; a multicast of this die alone, before its source is read and after; a fill of the first element, and of the position before
it, which is a pad position; a multicast of two elements that fills. -/
theorem meets_FillResults :
    (let s := engine (cmd .copyIn false 0)
     (s.die 0).cmds[0]? = some (cmd .copyIn false 0) ∧ s.starts 0 = true) ∧
    (let c := cmd (.mcast 1 [0]) false 0
     let s := engine c
     (s.die 0).cmds[0]? = some c ∧ [0].head? = some 0 ∧ [0].Nodup ∧ c.buf = none ∧ s.starts 0 = true ∧ (s.die 0).storesDone c.bsn = true ∧ s.mcastTurn 0 0 c [0] = true ∧
       (∀ e ∈ [0], (s.die e).cmds.any (s.mate 0 c e) = true) ∧ c.started = false ∧ c.rpos < boxSize c.xb ∧ s.copyWaits 0 c 0 1 = false ∧
       isOk (s.fillData 0 c 0 (boxSize c.xb)) [(0, 0)] = true) ∧
    (let c := cmd .copyIn true 0
     let s := engine c
     (s.die 0).cmds[0]? = some c ∧ c.detached = false ∧ c.buf = none ∧ (s.die 0).storesDone c.bsn = true ∧ c.pos < boxSize c.xb ∧ 7 < dEsz c.desc ∧
       c.isPad 0 = false ∧ s.copyWaits 0 c 0 (boxSize c.xb) = false ∧ isOk (s.fillData 0 c 0 (boxSize c.xb)) [(0, 0)] = true) ∧
    (let c := cmd .copyIn true 0xFFFFFF
     c.isPad 0 = true ∧ isOk ((engine c).fillData 0 c 0 (boxSize c.xb)) [] = true) ∧
    let c := { cmd (.mcast 1 [0]) true 0 with xb := 0x1000000000000, buf := some [(0, 5), (8, 6)] }
    ((engine c).die 0).cmds[0]? = some c ∧ c.started = true ∧ c.detached = false ∧ [((0 : Nat), (5 : Nat)), (8, 6)].Pairwise (fun e f => e.1 + dEsz c.desc ≤ f.1) ∧
      [((0 : Nat), (5 : Nat)), (8, 6)].drop c.pos = [(0, 5), (8, 6)] ∧ 0 < boxSize c.xb - c.pos := by decide +kernel

/-- A drain of one element to 0x30000. -/
theorem meets_DrainResults :
    let c := cmd .copyOut true 0
    let s := engine c
    (s.die 0).cmds[0]? = some c ∧ c.kind = .copyOut ∧ c.started = true ∧ c.detached = false ∧ (s.die 0).vpoison = [] ∧ (s.die 0).storesDone c.bsn = true ∧ dBulk c.desc = false ∧ c.pos < boxSize c.xb ∧ c.pos = 0 ∧
      boxSize c.xb = 1 ∧ c.isPad 0 = false ∧
      s.translate (s.die 0).tlb (s.dieXlat 0) .store false (c.va 0) = .ok (0x30000, leaf0) ∧ s.specDie 0 = false ∧ Plain s 0x30000 (dEsz c.desc) ∧
      (s.die 0).cache = [] ∧ s.copyWaits 0 c 0 1 = false ∧ (State.drainData 0 c 0 (boxSize c.xb) s).2 = none :=
  ⟨by decide +kernel, rfl, rfl, rfl, by decide +kernel, by decide +kernel, by decide +kernel, by decide +kernel, rfl, by decide +kernel,
    by decide +kernel, ok_of (by decide +kernel), by decide +kernel,
    plain_low (by decide +kernel) (by decide +kernel), by decide +kernel, by decide +kernel, by decide +kernel⟩

/-- A clean line and a dirty one; a CFLUSH whose accesses are performed. -/
theorem meets_CacheLineResults (dirty : BitVec 128) (h : dirty = 0 ∨ dirty = 1) :
    let s := base.setDie 0 { caching dirty with cmds := [cmd (.flush true) true 0] }
    (∀ l ∈ (s.die 0).cache, Plain s (l.line * 128) 128) ∧ (s.die 0).cpoison = [] ∧ ((s.die 0).cache.map (·.line)).Nodup ∧
      (s.die 0).cline 0x30000 = some ⟨0x600, 0, BitVec.allOnes 128, dirty⟩ ∧ (s.die 0).cmds[0]? = some (cmd (.flush true) true 0) ∧ (s.die 0).accDone 0 = true := by
  rcases h with rfl | rfl <;> refine ⟨fun l hl => ?_, by decide +kernel, by decide +kernel, by decide +kernel, by decide +kernel, by decide +kernel⟩ <;>
    exact plain_low (by have : l.line = 0x600 := by simpa [caching] using congrArg CLine.line (List.mem_singleton.1 hl)
                        rw [this]; decide) (by decide +kernel)

/-- Slot Y of a bundle at a die that context 0 drives. -/
def yDie (y : Die) : State := { onDie y pk with cur := { (onDie y pk).cur with slot := 7 } }

/-- A Y slot on the purser pair, which has some registers set, beside the launch of context 0. -/
def onPurser (x : Ctx) (l : List (Reg × W64)) : State :=
  let s := (base.setCtx 0 x).setCtx purser { Ctx.reset with lst := .running, sc := l.foldl (fun k e => k.setX e.1 e.2) Scal.reset }
  { s with cur := { Cur.reset with ctx := purser } }

/-- The context of `base`. -/
def ctx0 : Ctx := base.ctx 0

/-- An access outstanding and none; a request outstanding and none; a reply to a context that is saved and to one that is not; a YIELD of
the purser pair with no bit set and with one. -/
theorem meets_SynchronizationResults :
    base.cur.side = .seq ∧ (porting ⟨0, 0, 0, 8, false, .load false 5, false⟩).portBusy = true ∧ base.portBusy = false ∧ base.cx.spec = none ∧
      base.cx.seg.closing = none ∧ base.cx.mbox = none ∧ (base.updCx fun x => { x with mbox := some ((5, 9), 0, 0) }).cx.mbox ≠ none ∧
      (let s := onPurser { ctx0 with mbox := some ((5, 9), 1, 2) } [(6, 128)]
       s.cur.side = .seq ∧ s.cur.ctx = purser ∧ 0 = (s.x 6).toNat % 128 ∧ 0 < s.nparts ∧ (s.ctx 0).mbox = some ((5, 9), 1, 2) ∧ (s.ctx 0).mboxKept = none ∧
         (s.ctx 0).swapped = false ∧ (s.ctx 0).saved = false ∧ (s.ctx 0).preempt = false) ∧
      (onPurser { ctx0 with mbox := some ((5, 9), 1, 2), swapped := true } []).ctx 0 = { ctx0 with mbox := some ((5, 9), 1, 2), swapped := true } ∧
      (onPurser ctx0 []).pendings = [] ∧ (onPurser { ctx0 with trappend := true } []).pendings ≠ [] ∧
      (yDie (dieOf [])).cur.side = .die := by decide +kernel

/-- A die whose context gathers the reports of the bundle at it. -/
def gathering (y : Die) (k : GKind) : State := (yDie y).updCtx 0 fun x => { x with gathers := [⟨9, k, [0], 0, 0, []⟩] }

theorem meets_Reports : (gathering (dieOf []) (.rdv 1)).driver 0 = some 0 ∧ (gathering (dieOf []) (.rdv 1)).cur.die = 0 ∧
    (((gathering (dieOf []) (.rdv 1)).ctx 0).gathers.any fun g => g.bsn == (gathering (dieOf []) (.rdv 1)).pbsn && g.dies.contains 0) = true := by
  decide +kernel

/-- A bollard at 0x40000, and its binding as region 2. -/
def bol : Bollard := { va := 0x40000, job := 0, excl := none, shared := [], relseq := 4, reqs := [], binders := 1, writeback := false }
def binding (b : Bollard) (f : Ctx → Ctx) : State :=
  { base with bollards := [(0x40000, b)] }.updCx fun x => f { x with bound := [⟨2, 0, 0x40000⟩] }

/-- A region that is not bound; a bollard held, asked for, and neither. -/
theorem meets_BollardResults_issue :
    (let r : Spec := ⟨0, ⟨0, 0, 0, 0, false⟩, [], 0, [], .running⟩
     (base.updCx fun x => { x with spec := some r }).cx.spec ≠ none) ∧
    base.cx.spec = none ∧ base.cx.bollardOf 2 = none ∧ (binding bol id).cx.bollardOf 2 = some 0x40000 ∧
      0x40000 ∈ (binding bol fun x => { x with held := [0x40000] }).cx.held ∧
      (0x40000, true) ∈ (binding bol fun x => { x with asked := some (0x40000, true) }).cx.asked ∧
      (0x40000 ∉ (binding bol id).cx.held ∧ (binding bol id).cx.asked = none ∧ (binding bol id).bollard? 0x40000 = some bol) ∧
      (binding bol id).cx.spec = none ∧ (binding bol id).cx.seg.closing = none ∧
      (let s := { binding bol id with dies := [(0, dieOf [])], cur := { Cur.reset with side := .die, pkt := some pk } }
       s.cur.side = .die ∧ s.driver s.cur.die = some 0 ∧ (s.ctx 0).bollardOf 2 = some 0x40000 ∧ s.granted 0 0x40000 = false) ∧
      let s := { binding { bol with shared := [0] } id with dies := [(0, dieOf [])], cur := { Cur.reset with side := .die, pkt := some pk } }
      s.cur.side = .die ∧ s.driver s.cur.die = some 0 ∧ (s.ctx 0).bollardOf 2 = some 0x40000 ∧ s.granted 0 0x40000 = true ∧ (s.ctx 0).gathers = [] ∧
        s.boundLines 0 s.cur.die 0x40000 = [] := by decide +kernel

/-- An exclusive request to a FREE bollard and a shared one to one held shared, and the same behind a BREL; a release that is reported; a record to write back. -/
theorem meets_BollardResults_unit :
    (∀ b ∈ [{ bol with reqs := [(0, true)] }, { bol with reqs := [(0, false)], shared := [5] }],
      (binding b id).bollard? 0x40000 = some b ∧ b.excl = none ∧ (b.reqs = [(0, true)] → b.shared = []) ∧ ((binding b id).ctx 0).brelOf 0x40000 = none ∧
        ((binding b fun x => { x with gathers := [⟨9, .brel 2, [], 0, 0, []⟩] }).ctx 0).brelOf 0x40000 ≠ none) ∧
    (let g : Gather := ⟨9, .brel 2, [], 0, 0, []⟩
     let s := binding { bol with excl := some 0 } fun x => { x with gathers := [g] }
     (s.ctx 0).brelOf 0x40000 = some g ∧ s.reported g = true ∧ (s.ctx 0).portDone g.bsn = true) ∧
    (let b := { bol with writeback := true, binders := 0 }
     (binding b id).bollard? 0x40000 = some b ∧ b.writeback = true ∧ b.binders = 0) := by decide +kernel

theorem meets_BollardResults_plain : Plain (binding bol id) 0x40000 64 := plain_low (by decide) rfl

/-- A signal at the last word of the first GiB; a wait that holds and one that does not; a SIGADD whose reports are in. -/
theorem meets_SignalResults :
    (let s := regs [(6, 0x3FFFFFF8)]
     s.cur.side = .seq ∧ (s.x 6).toNat < 2 ^ 56 ∧ (s.x 6).toNat % 8 = 0 ∧ s.cx.spec = none ∧ s.cx.seg.closing = none ∧
       isOk (s.translate s.cx.tlb (s.ctxXlat s.cur.ctx) .atomic true (s.x 6).toNat) (0x3FFFFFF8, leaf0) = true ∧
       isOk (s.translate s.cx.tlb (s.ctxXlat s.cur.ctx) .store true (s.x 6).toNat) (0x3FFFFFF8, leaf0) = true ∧
       isOk (s.translate s.cx.tlb (s.ctxXlat s.cur.ctx) .load true (s.x 6).toNat) (0x3FFFFFF8, leaf0) = true) ∧
    (∀ n ∈ [0, 1],
      let v := w64 n
      let s := base.updCx fun x => { x with wait := .sig .eq .mod 5 0x40000 0x40000 v }
      (s.ctx 0).wait = .sig .eq .mod 5 0x40000 0x40000 v ∧ s.evaluates 0 = true ∧ (s.ctx 0).sigClear 0x40000 = true ∧ s.poisonIn 0x40000 8 = false ∧
        decide (BitVec.ofNat 64 (loaded s 0x40000 8) = v) = (v == 0)) ∧
    (∀ k ∈ [GKind.sigadd .mod 5 0x40000 0x40000 3, .sigst .mod 0x40000 0x40000 3],
      let g : Gather := ⟨9, k, [], 0, 0, []⟩
      let s := base.updCx fun x => { x with gathers := [g] }
      (s.ctx 0).swapped = false ∧ (s.ctx 0).gathers.find? (s.reportDue 0) = some g ∧ s.poisonIn 0x40000 8 = false) ∧
    (let lost (va : Nat) := base.updCx fun x => { x with wait := .sigLost .eq .mod 5 va 1 }
     ((lost 0x40000).ctx 0).wait = .sigLost .eq .mod 5 0x40000 1 ∧ (lost 0x40000).evaluates 0 = true ∧
       isOk ((lost 0x40000).translate ((lost 0x40000).ctx 0).tlb ((lost 0x40000).ctxXlat 0) .load true 0x40000) (0x40000, leaf0) = true ∧
       isErr ((lost 0x40000000).translate ((lost 0x40000000).ctx 0).tlb ((lost 0x40000000).ctxXlat 0) .load true 0x40000000) 0x11 = true) := by decide +kernel

theorem meets_SignalResults_plain (f : Ctx → Ctx) : Plain (base.updCx f) 0x40000 8 := plain_low (by decide) rfl

/-- The ends of the blocks of the register map; a counter of each kind; event codes 9 and 10. -/
theorem meets_SystemRegisterResults :
    base.cur.side = .seq ∧ (yDie (dieOf [])).cur.side = .die ∧ base.cur.ctx ≠ purser ∧
      (∀ a ∈ [7, 0xFF, 0x178, 0x1FF, 0x500, 0xFFF], (7 ≤ a ∧ a < 0x100) ∨ (0x178 ≤ a ∧ a < 0x200) ∨ 0x500 ≤ a) ∧
      (∀ a ∈ [0x200, 0x4FF], 0x200 ≤ a ∧ a < 0x500) ∧ (0x13F : BitVec 12).toNat = 0x100 + 63 ∧ (0x137 : BitVec 12).toNat = 0x100 + 55 ∧
      (0x177 : BitVec 12).toNat = 0x140 + 55 ∧ ¬(2 ≤ ((base.part base.cur.ctx).evsel.getD 55 0).toNat) ∧ ((regs [(6, 9)]).x 6).toNat ≤ 9 ∧ 9 < ((regs [(6, 10)]).x 6).toNat := by
  decide +kernel

/-- A fault of a die. -/
def faultAt (bsn : BitVec 48) : DFault := ⟨bsn, 0x20000, 3, 0x0101, 0, [4], 0, 0, [], 0, .slots pk (dieOf []).regs 0⟩

/-- A gang of two dies, both stopped, that have faulted at one bundle. -/
theorem meets_FaultFreezes :
    (let s := base.setDie 0 { dieOf [] with fault := some (faultAt 9) }
     (0 ∈ s.issueSet 0 ∧ (s.die 0).fault ≠ none ∧ (s.ctx 0).frozen = false ∧ (s.ctx 0).swapped = false ∧ (s.ctx 0).saved = false) ∧
       s.driver 0 = some 0 ∧ (s.ctx 0).stopping = false) ∧
    (let y := { dieOf [] with fault := some (faultAt 9), stopped := true }
     let s := (((gangOf 2).setDie 0 y).setDie 1 y).updCtx 0 fun x => { x with stopping := true }
     s.driver 1 = some 0 ∧ 0 ∈ s.issueSet 0 ∧ (s.die 0).fault = some (faultAt 9) ∧
       (∀ e ∈ s.issueSet 0, (s.die e).fault = some (faultAt 9) ∧ 0 ≤ e) ∧
       (s.ctx 0).stopping = true ∧ (s.ctx 0).frozen = false ∧ (s.ctx 0).swapped = false ∧ (s.ctx 0).saved = false ∧ (s.ctx 0).killed = false ∧
       (s.ctx 0).spec = none ∧ s.allStopped 0 = true ∧ (faultAt 9).bsn = (faultAt 9).bsn) := by decide +kernel

/-- A packet with a copy, a lane access of another die, and a lane in the retry ring. -/
def yPk : Packet := { pk with slots := [(1, .ccopyIn ⟨5, ⟨0, 0, 0, 0⟩, 2, 3, 6, 7, .none⟩)] }
def remoteAcc : RAcc := ⟨0, 9, 0, 4, 0, [0], BitVec.allOnes 2048, 1, 0, 1, .load, 0, [], 0⟩
def ringed (op : LOp) : State :=
  let s := onPurser ctx0 [(6, 0), (7, 5)]
  s.setDie 0 { dieOf [Lane.zero] with ring := [(0, { acc := gacc op [0] none, walk := 0x11 })] }

/-- A context frozen at a sequencer cause, at a die fault of each kind, and not frozen. -/
theorem meets_ResumeResults :
    (∀ d ∈ [false, true],
      let s := onPurser { ctx0 with frozen := true, fcr := { cause := 0x0010, dief := d } } []
      let x := s.ctx ((s.x 6).toNat % 128)
      s.cur.side = .seq ∧ s.cur.ctx = purser ∧ (s.x 6).toNat % 128 < s.nparts ∧ x.frozen = true ∧ x.swapped = false ∧ x.saved = false ∧ x.stopping = false ∧
        x.killed = false ∧ (x.fcr.cause.toNat < 0x0201 ∨ 0x0207 < x.fcr.cause.toNat) ∧ x.fcr.dief = d ∧ x.bad = []) ∧
    ((onPurser ctx0 []).ctx 0).frozen = false ∧
    (let f : DFault := { faultAt 9 with redo := .slots yPk (dieOf []).regs 0 }
     let s := (onPurser { ctx0 with frozen := true, fcr := { cause := 0x0101, dief := true }, resend := [pk] } []).setDie 0 { dieOf [] with fault := some f }
     0 ∈ s.issueSet 0 ∧ (s.die 0).fault = some f ∧ (s.ctx 0).seg.rewind = none ∧ pk ∈ (s.ctx 0).resend ∧ (s.die 0).passed pk = false) ∧
    (∀ r ∈ [Redo.slots yPk (dieOf []).regs 0, .remote [remoteAcc], .cmd (cmd .copyIn true 0)],
      let f : DFault := { faultAt 9 with redo := r }
      let s := onPurser { ctx0 with frozen := true, fcr := { cause := 0x0101, dief := true }, recFault := some (0, f) } []
      (s.ctx 0).recFault = some (0, f) ∧ (s.die 0).fault = none ∧ (s.die 0).redo = none ∧ (s.die 0).mutes = []) ∧
    (1, Instr.ccopyIn ⟨5, ⟨0, 0, 0, 0⟩, 2, 3, 6, 7, .none⟩) ∈ yPk.slots ∧ (0 : BitVec 8).getLsbD 1 = false ∧
      toutOf (.ccopyIn ⟨5, ⟨0, 0, 0, 0⟩, 2, 3, 6, 7, .none⟩) = some 5 := by
  decide +kernel

/-- A ring entry of each kind, one that must wait, and no entry. -/
theorem meets_ResumeResults_ring :
    (∀ op ∈ [LOp.load, .store 3, .amo .add 1 0],
      let s := ringed op
      let a := gacc op [0] none
      Tbl.get? (s.die 0).ring 0 = some { acc := a, walk := 0x11 } ∧ (s.die 0).dirtyIn 0x30000 a.size = false ∧ (s.die 0).mayLand a.bsn (sliceSet a.dst) = true ∧ (s.x 6).toNat / 2 ^ 12 % 2 ^ 7 = 0 ∧ (s.x 6).toNat % 2 ^ 12 = 0 ∧ 0 < s.ringSize ∧ (s.die 0).heldLanes = [] ∧
        isOk (s.translate (s.die 0).tlb (s.dieXlat 0) a.kind a.isAmo a.va) (0x30000, leaf0) = true ∧ s.driver 0 = some 0 ∧ (s.ctx 0).spec = none ∧
        s.cached 0 0x30000 a.dev = false ∧ 0 < a.size ∧ s.poisonIn 0x30000 a.size = false) ∧
    Tbl.get? ((ringed .load).die 0).ring 1 = none ∧
    (let s := ringed .load
     let t := s.setDie 0 { s.die 0 with mmuls := [mmulOf true [[], []] 0] }
     (t.die 0).mayLand 9 (sliceSet [0]) = false ∧ Tbl.get? (t.die 0).ring 0 = some { acc := gacc .load [0] none, walk := 0x11 }) ∧
    (let e : RetryE := { acc := gacc .load [0] none, walk := 0x11, bad := true }
     let s := ringed .load
     let t := s.setDie 0 { s.die 0 with ring := [(0, e)] }
     Tbl.get? (t.die 0).ring 0 = some e ∧ (t.die 0).mayLand 9 (sliceSet [0]) = true ∧ e.bad = true) ∧
    isErr ((ringed .load).translate ((ringed .load).die 0).tlb ((ringed .load).dieXlat 0) .load false 0x40000000) 0x11 = true := by decide +kernel

theorem meets_ResumeResults_plain (op : LOp) : Plain (ringed op) 0x30000 4 := plain_low (by decide) rfl

/-- A live context, a saved one, one whose partition another launch holds, and none; a command in progress; caches with a leaf that an XINV names
and without. -/
theorem meets_ServiceCommandResults :
    ({ base with cmdBusy := some (1, 0) } : State).cmdBusy ≠ none ∧ base.nparts ≤ 64 ∧ base.cmdBusy = none ∧ 63 < base.nparts ∧
      ((base.ctx 0).spec = none ∧ (base.ctx 0).live = true ∧ (base.ctx 0).killed = false ∧ (base.ctx 0).swapped = false) ∧
      (let s : State := { base with agenda := [.preempt 0] }
       s.agenda = .preempt 0 :: [] ∧ 0 < s.nparts ∧ (s.ctx 0).spec = none ∧ (s.ctx 0).live = true ∧ (s.ctx 0).killed = false ∧ (s.ctx 0).swapped = false ∧
         0 ∈ s.gangCtxs 0) ∧
      (let s := base.updCtx 0 fun x => { x with swapped := true, mbox := some ((5, 9), 1, 2), mboxKept := some 7 }
       (s.ctx 0).swapped = true ∧ s.gangCtxs 0 = [0] ∧ (s.ctx 0).wait = .none ∧ s.mayRestore 0 = true ∧ (s.ctx 0).bad = [] ∧ 0 ∈ s.issueSet 0 ∧
         (s.ctx 0).frozen = false ∧ (s.updPart 0 fun y => { y with gang := some 9 }).mayRestore 0 = false) ∧
      (let s := binding bol fun x => { x with swapped := true, asked := some (0x40000, true) }
       (s.ctx 0).swapped = true ∧ s.gangCtxs 0 = [0] ∧ (s.ctx 0).asked = some (0x40000, true) ∧ s.bollard? 0x40000 = some bol) ∧
      base.xinvBusy = none ∧ ({ base with xinvBusy := some 5 } : State).xinvBusy = some 5 ∧
      (let e : TlbE := ⟨0, 1, 0, 0, false, true, true, true⟩
       let s := base.setDie 0 { dieOf [] with tlb := [e] }
       s.dies.any (fun y => y.2.tlb.contains e) = true ∧
         (e.job.toNat == (0 : W64).toNat % 2 ^ 16 && ((0 : W64).getLsbD 63 || (0 : W64).toNat / 2 ^ 16 % 2 ^ 40 * 2 ^ 16 / 2 ^ pageBits e.lvl == e.vpage)) = true) ∧
      (∀ e ∈ base.dies, e.2.holdsXinv 5 = false) ∧ (∀ e ∈ base.ctxs, e.2.holdsXinv 5 (base.ctxXlat e.1).job = false) := by decide +kernel

/-- A stopped context that a pre-emption saves, and one that a kill ends; a saved gang; a detached PERM; a discarded run. -/
theorem meets_PreemptionResults :
    (∀ b ∈ [false, true],
      let s := (base.setDie 0 { dieOf [] with stopped := true }).updCtx 0 fun x => { x with stopping := true, preempt := true, killed := b, task := some 3 }
      (s.ctx 0).stopping = true ∧ (s.ctx 0).swapped = false ∧ (s.ctx 0).saved = false ∧ (s.ctx 0).spec = none ∧ s.allStopped 0 = true ∧ (s.ctx 0).port = [] ∧
        (∀ d ∈ s.issueSet 0, (s.die d).fault = none) ∧ (s.ctx 0).killed = b ∧ (s.ctx 0).preempt = true ∧ (s.ctx 0).asked = none ∧ (s.ctx 0).colls = [] ∧
        (s.ctx 0).held = [] ∧ (s.ctx 0).releasing = [] ∧ (∀ a ∈ s.regr.accs, s.startable a = false) ∧ (∀ d ∈ s.issueSet 0, (s.die d).cmdsDone = true)) ∧
    (let s := base.updCtx 0 fun x => { x with saved := true }
     (s.ctx 0).saved = true ∧ (∀ k ∈ s.gangCtxs 0, (s.ctx k).live = true → (s.ctx k).saved = true) ∧ (s.die 0).parity = [] ∧
       ∀ r ∈ (s.die 0).arrs, r.badA = false ∧ r.badS = false) ∧
    (let k := { cmd (.perm (some [1, 2]) 64) true 0 with detached := true }
     ((base.setDie 0 { dieOf [] with cmds := [k] }).die 0).cmds[0]? = some k ∧ k.detached = true ∧ k.started = true) ∧
    (let r : Spec := ⟨0, ⟨0, 0, 0, 0, false⟩, [], 0, [], .discarding⟩
     let s := (base.setDie 0 { dieOf [] with stopped := true }).updCtx 0 fun x => { x with spec := some r }
     (s.ctx 0).spec = some r ∧ r.st = .discarding ∧ s.allStopped 0 = true ∧ (s.ctx 0).port = [] ∧ ∀ d ∈ s.issueSet 0, (s.die d).cmdsDone = true) := by decide +kernel

/-- A MASK that names a die of the issue set, and one that does not; quadrants of a half-die; a single- and a multi-stream gang. -/
theorem meets_GangResults :
    (let s := regs [(6, 1)]
     s.cur.side = .seq ∧ s.portBusy = false ∧ s.cx.seg.closing = none ∧ (∀ n < 64, (s.x 6).getLsbD n = true → ∃ d ∈ s.issueSet s.cur.ctx, s.cdn d = n) ∧
       lHalf (s.ctx s.cur.ctx).lrec = false) ∧
    (((regs [(6, 2)]).x 6).getLsbD 1 = true ∧ ∀ d ∈ (regs [(6, 2)]).issueSet 0, (regs [(6, 2)]).cdn d ≠ 1) ∧
    (let s := gathering (dieOf []) (.felog 5 6)
     s.cur.side = .die ∧ s.driver s.cur.die = some 0 ∧ s.dx.delivered s.pbsn = true ∧
       ((s.ctx 0).gathers.any fun g => g.bsn == s.pbsn && g.dies.contains s.cur.die) = true ∧ QSel.quads .all s.dsrc.qmask = [0]) := by decide +kernel

/-- Reports of each kind that are in. -/
theorem meets_ReportResults :
    ∀ k ∈ [GKind.fence .mod, .rdv 1, .red .fsum 5, .mstat 5, .felog 5 6],
      let s := reported k [(1, []), (2, [])]
      let g : Gather := ⟨7, k, [0, 1], 0, 0, []⟩
      (s.ctx 0).swapped = false ∧ (s.ctx 0).gathers.find? (s.reportDue 0) = some g ∧ s.gopOf 0 g.goc = none := by decide +kernel

/-- A rotation of a gang of two dies by one. -/
def permR : PermA := ⟨.rot .row, 1, 1, 64, 15⟩
def permV : PermVA := ⟨.rot .row, 1, 1, 6, 7, 8, 5⟩

/-- The packet of a PERM at the head of the queue of an enabled die. -/
def permPk : Packet := { pk with slots := [(7, .perm permR)] }
def permDie : Die := { dieOf [Lane.zero] with regs := { (dieOf [Lane.zero]).regs with dmask := 3 }, queue := [permPk], permHeld := true }

/-- A gang of two dies that both hold the PERM. -/
def permGang : State := ((gangOf 2).setDie 0 permDie).setDie 1 permDie

/-- A vault PERM of the largest block that ends at the top of the scratchpad, in the lockstep and out of it. -/
def permAt (xn : W64) : State :=
  let s := { permGang with cur := { Cur.reset with side := .die, slot := 7, pkt := some (pkW [(6, 0), (7, 0x7000000), (8, xn)]) } }
  { s with cur := { s.cur with perm := some [0, 1] } }

theorem meets_PermResults :
    (base.cur.side = .seq ∧ base.cx.seg.closing = none) ∧
    (permShapeBad permR.pat permR.gw permR.amt 2 = false ∧ permShapeBad permR.pat 2 permR.amt 2 = true ∧ (permAt 0x1000000).cur.side = .die ∧
      ((permAt 0x1000000).dieGang (permAt 0x1000000).cur.die).length = 2 ∧ (permAt 0x1000000).cur.perm ≠ none ∧ (permAt 0x1000000).y0.pend 5 = false ∧
      ((permAt 0x1000000).px 7).toNat + ((permAt 0x1000000).px 8).toNat = (permAt 0x1000000).padSize 0 ∧ ((permAt 0x1000000).px 8).toNat = 2 ^ 24 ∧
      ¬64 ≤ ((permAt 0).px 8).toNat) ∧
    (let s := permGang
     (s.ctx 0).gops = [] ∧ s.noIssue (lPart (s.ctx 0).lrec) = false ∧ (s.issueSet 0).Nodup ∧ s.issueSet 0 ≠ [] ∧
       ∀ d ∈ s.issueSet 0, s.driver d = some 0 ∧ (s.die d).permHead = some permPk ∧ permPk.slots = [(7, .perm permR)] ∧ (s.die d).frontier = none ∧
         (s.die d).held = false ∧ s.noIssue d = false ∧ (s.die d).permBusy = false ∧ s.enabled d = true ∧ (s.die d).parity = [] ∧ (s.die d).bad = [] ∧
         permShapeBad permR.pat permR.gw permR.amt (s.dieGang d).length = false ∧
         ((s.takeHead d permPk).die d).interlocked ((s.die d).turned permPk) permPk permPk.slots = false) ∧
    (let f := flightOf (dieOf [Lane.zero])
     let s := base.setDie 0 { dieOf [Lane.zero] with permW := some f }
     s.gangDies 0 = [0] ∧ (s.die 0).permLands = true ∧ (base.setDie 0 { dieOf [Lane.zero] with permW := some f, mmuls := [mmulOf true [[], []] 0] }).gangDies 0 = [0] ∧
       { dieOf [Lane.zero] with permW := some f, mmuls := [mmulOf true [[], []] 0] }.permLands = false ∧ (s.die 0).cmds.any Cmd.isPerm = false ∧ (s.die 0).permW = some f ∧ (s.die 0).regs.lanes[0]? = some Lane.zero ∧
       f.lanes[0]? = some (putSlices [0] 7)) := by decide +kernel

/-- A gang of two dies that both hold a vault PERM of 64 bytes, from the start of a scratchpad to the end of the other. -/
def vaultPk : Packet := { pkW [(6, 0), (7, 0x7FFFFC0), (8, 64)] with slots := [(7, .permVault permV)] }
def vaultGang : State :=
  let y := { permDie with queue := [vaultPk] }
  ((gangOf 2).setDie 0 y).setDie 1 y

/-- The lockstep of a vault PERM; a block that has arrived, behind another command. -/
theorem meets_PermResults_vault :
    (let s := vaultGang
     (s.ctx 0).gops = [] ∧ s.noIssue (lPart (s.ctx 0).lrec) = false ∧ (s.issueSet 0).Nodup ∧ s.issueSet 0 ≠ [] ∧
       ∀ d ∈ s.issueSet 0, s.driver d = some 0 ∧ (s.die d).permHead = some vaultPk ∧ vaultPk.bsn = 9 ∧ vaultPk.slots = [(7, .permVault permV)] ∧
         (s.die d).frontier = none ∧ (s.die d).held = false ∧ s.noIssue d = false ∧ (s.die d).permBusy = false ∧ s.enabled d = true ∧
         (s.die d).parity = [] ∧ (s.die d).bad = [] ∧ (s.die d).vpoison = [] ∧ (s.die d).toks.length = 64 ∧ (s.die d).pend 5 = false ∧
         ((s.takeHead d vaultPk).die d).interlocked ((s.die d).turned vaultPk) vaultPk vaultPk.slots = false ∧
         permShapeBad permV.pat permV.gw permV.amt (s.dieGang d).length = false ∧ (vaultPk.getX 6).toNat % 64 = 0 ∧ (vaultPk.getX 7).toNat % 64 = 0 ∧
         (vaultPk.getX 8).toNat = 64 ∧ (vaultPk.getX 7).toNat + 64 = s.padSize d ∧ (s.permFrom (s.issueSet 0) permV.pat permV.gw permV.amt d).isSome = true) ∧
    (let k := cmd (.perm (some [1, 2]) 64) true 0
     let s := base.setDie 0 { dieOf [] with cmds := [cmd (.flush true) true 0, k] }
     (∀ d ∈ s.gangDies 0, (s.die d).permW = none) ∧ (s.gangDies 0).Nodup ∧ 0 ∈ s.gangDies 0 ∧ (s.die 0).cmds[1]? = some k ∧ k.detached = false ∧
       ((s.die 0).cmds.head?.map Cmd.isPerm) = some false) := by decide +kernel

/-! ### Collectives -/

/-- A broadcast of one FP32 element at 0x30000 in group 1, in place. -/
def collD : BitVec 512 := BitVec.ofNat 512 (0x30000 * 2 ^ 456 + 0x30000 * 2 ^ 400 + 2 ^ 368 + 2 ^ 352 + 3 * 2 ^ 337 + 14 * 2 ^ 330)

/-- Group 1 of job 0: partition 0 of this module. -/
def grp : Group := ⟨0, 1, [(0, 0)], []⟩

/-- `base` with the descriptor at SLM 64, the group, and a region for its buffer; a context changed as told. -/
def coll (f : Ctx → Ctx) : State :=
  let s := (base.updCx fun x => f { x with slm := slmWr [] 64 64 collD.toNat }).updPart 0 fun p =>
    { p with regions := [(0, BitVec.ofNat 256 (2 ^ 255 + 3 * 2 ^ 253 + 0x30000 * 2 ^ 128 + 0x1000 * 2 ^ 64))] }
  { s with groups := [grp] }

/-- A record of the collective 5 of its group. -/
def crec (st : CStat) : CollRec := ⟨1, 5, collD, 3, 9, [0], (0x30000, 4), st, 0, [], 0⟩

/-- Its accession. -/
def accn (st : AccSt) : Accn := { Accn.new 0 1 5 with st := st, requested := [0] }

/-- A state with that accession and the record. -/
def joined (a : Accn) (k : CollRec) : State :=
  let s := coll fun x => { x with colls := [k] }
  { s with regr := { s.regr with accs := [a] } }

theorem meets_CollectiveResults_issue :
    (let s := { coll id with unprot := true }
     s.cur.side = .seq ∧ s.slmSize < (4095 : BitVec 12).toNat * 64 + 64) ∧
    (coll id).slmSize = (4095 : BitVec 12).toNat * 64 + 64 ∧
    (let s := coll id
     s.cur.side = .seq ∧ s.cx.spec = none ∧ s.cx.seg.closing = none ∧ s.cx.colls.length < 64 ∧
       s.collStatus (lJob s.cx.lrec) (lPart s.cx.lrec) false (s.collDesc 1) = 0 ∧
       s.collStatus (lJob s.cx.lrec) (lPart s.cx.lrec) false (s.collDesc 2) = 1 ∧
       s.group? (lJob s.cx.lrec) (cGid (s.collDesc 1)) = some grp) ∧
    (∀ st ∈ [CStat.done 0, .done 1, .requested],
      let s := (coll fun x => { x with colls := [crec st] }).setX 6 (w64 (2 ^ 48 + 5 * 2 ^ 16))
      s.cx.expired = [] ∧ s.cx.colls = [crec st] ∧ (s.x 6).toNat % 2 ^ 16 = 0 ∧ (crec st).gid = (s.x 6).toNat / 2 ^ 48 ∧
        (crec st).seq = (s.x 6).toNat / 2 ^ 16 % 2 ^ 32 ∧ s.x 0 = 0 ∧ ((crec st).isDone = false ↔ st = .requested) ∧ s.unacked = [] ∧ ∃ e ∈ ({ s with unacked := [(0, 1, 2)] } : State).unacked, e.2.2 ≠ 0) ∧
    (let s := (gathering (dieOf []) .coll).updCtx 0 fun x => { x with colls := [crec .waitTok] }
     s.cur.side = .die ∧ s.driver s.cur.die = some 0 ∧ s.y0.pend 3 = false ∧
       ((s.ctx 0).gathers.any fun g => g.bsn == s.pbsn && g.dies.contains s.cur.die) = true ∧
       (∃ k ∈ (s.ctx 0).colls, k.bsn = s.pbsn ∧ k.st = .waitTok) ∧ ∀ k ∈ (s.updCtx 0 fun x => { x with colls := [] }).cx.colls, k.st ≠ .waitTok) := by
  decide +kernel

theorem meets_CollectiveResults_course :
    (let g : Gather := ⟨9, .coll, [0], 0, 0, []⟩
     let s := (coll fun x => { x with colls := [crec .waitTok], gathers := [g] }).setDie 0 { dieOf [] with reps := [⟨9, 0, true, 0, 0, []⟩] }
     (s.ctx 0).colls[0]? = some (crec .waitTok) ∧ s.regr.accs = [] ∧ ((s.ctx 0).gathers.find? fun g => g.bsn == 9 && g.kind == .coll) = some g ∧
       s.reported g = true ∧ (s.ctx 0).portDone g.bsn = true) ∧
    (let a := { accn .granted with started := [0], mirrored := true }
     let s := joined a (crec .requested)
     s.regr.accs = [a] ∧ s.group? (BitVec.ofNat 16 a.job) a.gid = some grp ∧ s.localGroup grp = true ∧
       a.st = .granted ∧ a.started ≠ [] ∧ a.mirrored = true) ∧
    (let g := { grp with members := [(0, 0), (1, 0)] }
     let s := { joined (accn .granted) (crec .requested) with groups := [g] }
     s.group? (BitVec.ofNat 16 0) 1 = some g ∧ ∃ e ∈ g.members.zipIdx, e.1.1 ≠ s.mid.toNat ∧ e.2 ∉ ([] : List (Nat × BitVec 512)).map Prod.fst) ∧
    (∀ b ∈ [(false, false), (true, false), (false, true)],
      let a := { accn .live with started := [0], mirrored := true, arrived := true, mismatch := b.1, fault := b.2, srcs := [(0, [1, 2, 3, 4])] }
      let s := joined a (crec .requested)
      s.recsOf (lJob (s.ctx 0).lrec) 1 5 = [(0, 0, lPart (s.ctx 0).lrec, crec .requested)] ∧ (∀ d ∈ (crec .requested).dies, (9, 7) ∉ (s.die d).mutes) ∧
        (crec .requested).isDone = false ∧ a.st = .live ∧ srcsKnown (crec .requested).desc 1 (a.srcs ++ []) = true ∧
        srcsKnown (crec .requested).desc 1 [] = false ∧ [((0 : Nat), [(9 : Byte)])].filter (fun e => !a.srcs.any fun k => k.1 == e.1) = [] ∧
        [((1 : Nat), [(9 : Byte)])].filter (fun e => !a.srcs.any fun k => k.1 == e.1) ≠ [] ∧
      (s.ctx 0).colls[0]? = some (crec .requested) ∧ s.regr.accs = [a] ∧ a.job = (lJob (s.ctx 0).lrec).toNat ∧
        s.group? (lJob (s.ctx 0).lrec) 1 = some grp ∧ (s.ctx 0).wait = .none ∧ (s.moveData 0 (crec .requested) grp a.srcs 4).2 = true ∧
        (s.moveData 0 (crec .requested) grp a.srcs 4).1.memByte 0x30003 = 4) :=
  ⟨by decide +kernel, by decide +kernel, by decide +kernel, by decide +kernel⟩

/-- A member that has still to read its source, and one that has still to write its destination. -/
theorem meets_CollectiveResults_steps : ∀ got ∈ [[], [(1 : Byte), 2, 3, 4]],
    let a := { accn .live with started := [0], mirrored := true, arrived := true }
    let r := { crec .requested with got := got }
    let s := joined a r
    let e := (0, 0, lPart (s.ctx 0).lrec, r)
    s.recsOf (lJob (s.ctx 0).lrec) 1 5 = [e] ∧ (s.ctx 0).colls[0]? = some r ∧ r.isDone = false ∧ s.regr.accs = [a] ∧ a.job = (lJob (s.ctx 0).lrec).toNat ∧
      s.group? (lJob (s.ctx 0).lrec) 1 = some grp ∧ a.st = .live ∧ a.mirrored = true ∧ a.mismatch = false ∧ a.fault = false ∧
      (s.srcLeft grp e = 0 ↔ got ≠ []) ∧ isOk (s.srcRd e (min (cElem r.desc) 4)).2 [0, 0, 0, 0] = true ∧ r.pos < r.dst.2 ∧
      srcsKnown r.desc 1 ((s.collRank grp e, r.got) :: a.srcs) = true ∧
      (s.moveData 0 r grp ((s.collRank grp e, r.got) :: a.srcs) (cElem r.desc)).2 = true := by decide +kernel

theorem meets_CollectiveData : 0 < cCount collD ∧ ETy.s64.isF = false ∧ ETy.fp32.isF = true ∧ ∀ x ∈ [0, 2 ^ 64 - 1], x < 2 ^ ETy.s64.bits := by decide +kernel

/-- Cancels that a context waits for. -/
def cancelling (st : AccSt) (started : List Nat) : State :=
  let a := { accn st with mirrored := true, started := started }
  let s := joined a (crec .requested)
  s.updCtx 0 fun x => { x with cancels := [⟨7, 9, 1, 5⟩] }

theorem meets_RegistrarResults :
    (let a := accn .unassigned
     let s := joined a (crec .requested)
     s.regr.accs = [a] ∧ s.group? (BitVec.ofNat 16 a.job) a.gid = some grp ∧ s.localGroup grp = true ∧ s.regr.asks = [] ∧ a.requested ≠ []) ∧
    (let a := { accn .granted with mirrored := true }
     let s := joined a (crec .requested)
     s.hereRanks grp ≠ [] ∧ a.arrived = false ∧ a.started = []) ∧
    (∀ e ∈ [(AccSt.granted, []), (.live, [0])],
      let s := cancelling e.1 e.2
      (s.ctxs.map (·.1)).Nodup ∧ (s.ctx 0).cancels = [⟨7, 9, 1, 5⟩] ∧ (lJob (s.ctx 0).lrec).toNat = 0 ∧ (∃ r ∈ s.hereRanks grp, r.2 ∉ (accn e.1).completed) ∧ ({ accn e.1 with mirrored := true, started := e.2 } : Accn).wasCancelled = false) ∧
    (let g := { grp with members := [(0, 0), (1, 0)] }
     let s := { joined (accn .granted) (crec .requested) with groups := [g] }
     let t := { s with regr := { s.regr with epoch := 4 } }
     t.group? (BitVec.ofNat 16 0) 1 = some g ∧ t.servesKey 0 1 = false ∧ (3 : BitVec 16) ≠ t.regr.epoch ∧ (t.regr.epoch - 3).toNat < 2 ^ 15 ∧
       2 ^ 15 ≤ (t.regr.epoch - 5).toNat) ∧
    (let s := joined (accn .granted) (crec .requested)
     let t := { s with regr := { s.regr with unacked := [(0, 1, 5)] } }
     t.regr.accs = [accn .granted] ∧ t.regr.unacked = [((accn .granted).job, (accn .granted).gid, (accn .granted).seq)] ∧ s.regr.unacked = [] ∧
       2 ^ 15 ≤ (t.regr.epoch - 5).toNat) ∧
    (let a := { accn .granted with gid := 7, arrived := true }
     let b := { accn .granted with num := 1, arrived := true }
     let s := joined a (crec .requested)
     let t := { s with regr := { s.regr with accs := [a, b] } }
     t.regr.accs = [a, b] ∧ a.arrived = true ∧ t.herePartsOf a = [] ∧ b.arrived = true ∧ b.started = [] ∧ t.herePartsOf b ≠ [] ∧ t.allIssued b = true) ∧
    ({ base with nobackup := true } : State).nobackup = true ∧
    (let s := { base with nobackup := false, regr := { base.regr with backup := some 0 } }
     s.regr.backup = some s.mid.toNat ∧ s.regr.accs = []) ∧
    (65535 < 65536 ∧ [(0, 0), (1, 0)] ≠ [] ∧ [(0, 0), (1, 0)].Nodup ∧ base.group? (BitVec.ofNat 16 0) 65535 = none) := by decide +kernel

/-! ### Reliability -/

/-- A context whose segment is closing at bundle 9. -/
def closing : State :=
  (base.setDie 0 { dieOf [Lane.zero] with commitWait := true, frontier := some 9 }).updCx fun x => { x with seg := { x.seg with closing := some (9, 0x20280) } }

/-- A rewind whose only faulted die is die 0. -/
def rew (restored : List Nat) : Rewind := ⟨[0], restored, 12, none, false, 128⟩
def rewinding (restored : List Nat) : State :=
  (base.setDie 0 { dieOf [Lane.zero] with ckpt := some (dieOf [Lane.zero]).checkpoint }).updCx fun x => { x with seg := { x.seg with rewind := some (rew restored) } }

theorem meets_ReliabilityResults :
    ((closing.ctx 0).seg.closing = some (9, 0x20280) ∧ closing.commits 0 = true ∧ base.commits 0 = false) ∧
    (let s := rewinding []
     let y := dieOf [Lane.zero]
     s.driver 0 = some 0 ∧ (s.ctx 0).seg.rewind = some (rew []) ∧ (s.die 0).ckpt = some y.checkpoint ∧ 0 ∈ (rew []).faulted ∧ 0 ∉ (rew []).restored ∧
       (s.ctx 0).swapped = false ∧ (s.ctx 0).saved = false ∧ (s.ctx 0).mcheck = false ∧ (s.die 0).finished (s.ctx 0).seg.entry = true ∧
       (s.die 0).regs.lanes[0]? = some Lane.zero ∧ y.checkpoint.prs[0]? = some Lane.zero.pr ∧
       y.checkpoint.quads.getLsbD 0 = true ∧ y.checkpoint.quads.getLsbD 1 = false ∧ (s.die 0).fault = none) ∧
    (((rewinding [0]).ctx 0).seg.rewind = some (rew [0]) ∧ ∀ d ∈ (rew [0]).faulted, d ∈ (rew [0]).restored) := by decide +kernel

/-- A context that has machine checked and one that has not; a consumption in the current segment and one behind its RV bundle, repeatable or
not, for the first time and for the fourth. -/
theorem meets_ReliabilityResults_consume :
    (let s := base.updCx fun x => { x with frozen := true, fcr := { cause := 0x0202 } }
     (s.ctx 0).spec = none ∧ (s.ctx 0).mcheck = true) ∧
    (∀ n ∈ [0, 3, 4], ∀ u ∈ [false, true],
      let s := base.updCx fun x => { x with seg := { x.seg with consumed := n, unrep := u } }
      (s.ctx 0).spec = none ∧ (s.ctx 0).mcheck = false ∧ (s.ctx 0).killed = false ∧ (s.ctx 0).seg.closing = none ∧ (s.ctx 0).seg.unrep = u ∧
        (3 ≤ (s.ctx 0).seg.consumed ↔ n ≠ 0) ∧ (s.ctx 0).seg.ckpt = some (base.ctx 0).checkpoint) ∧
    ∀ n ∈ [0, 3, 4], ∀ u ∈ [false, true],
      let s := closing.updCx fun x => { x with seg := { x.seg with consumedNext := n, unrepNext := u, next := some x.checkpoint } }
      (s.ctx 0).spec = none ∧ (s.ctx 0).seg.closing = some (9, 0x20280) ∧ (9 : BitVec 48).toNat < (10 : BitVec 48).toNat ∧ (s.ctx 0).seg.unrepNext = u ∧
        (3 ≤ (s.ctx 0).seg.consumedNext ↔ n ≠ 0) ∧ (s.ctx 0).seg.next = some (closing.ctx 0).checkpoint := by decide +kernel

/-- The banks of a tree and of another unit; a launch that is on it, and none; a unit of each kind that an error strikes; banks with a record. -/
theorem meets_ReliabilityResults_errors :
    (bankListed 134 = true ∧ 128 ≤ 134 ∧ 134 < 640 ∧ 134 % 8 = 6 ∧ bankListed 66 = true ∧ (base.ctx 0).busy = true ∧ (base.ctx 0).mcheck = false ∧
      (base.ctx 0).killed = false ∧ (base.ctx 0).spec = none ∧ (base.ctx 1).busy = false) ∧
    (base.isMem 0x30000 = true ∧ 0x30000 < base.padSize 0 ∧ ((0 : Nat), ({ acc := gacc .load [0] none, walk := 0x11 } : RetryE)) ∈ ((ringed .load).die 0).ring ∧ (base.die 0).regs.lanes.length ≠ 0 ∧
      (((base.setDie 0 (caching 0)).die 0).cline 0x30000).isSome = true ∧ (base.die 0).arrs[3]? = some Arr.reset ∧
      unitOk base.nlanes (.pred 0 15) = true ∧ 0 < base.nlanes ∧ base.seqUnitOk 0 (.x 31) = true ∧
      ({ dieOf [] with vitrine := [⟨5, 0, 0⟩] }.vitrine.any fun v => v.line == 5) = true ∧ base.unprot = false) ∧
    (∀ b ∈ [true, false], let k : ErrBank := { valid := true, uc := b }
      k.valid = true ∧ k.uc = b) ∧ (3 : W64).getLsbD 0 = true ∧ (2 : W64).getLsbD 0 = false := by decide +kernel

/-! ### Queues and packets -/

/-- A header without signal, record and order. -/
def hd : PHdr := ⟨0, 7, true, .part, false, false⟩

/-- Queue 5: a ring of 64 packets at 0x50000 with RDPTR at 0x48000, of job 0 and class 1. -/
def queue5 : Nat := 0x50000 * 2 ^ 344 + 0x48000 * 2 ^ 288 + 6 * 2 ^ 260 + 2 ^ 258

/-- A header of a kernel at 0x20000 without constants, regions and arguments, at 0x60000. -/
def kheader : Nat := 0x4B48 * 2 ^ 48 + 2 ^ 40 + 0x20000 * 2 ^ 264

/-- Partitions 0 and 1 belong to job 0, and every entry may be read and written; queue 5 and a kernel are described. -/
def landed : State :=
  let s := ({ base with boot := .booted, qtbase := 0x80000 }.memWr 0x80140 64 queue5).memWr 0x60000 64 kheader
  let f (p : Part) : Part :=
    { p with pjobw := 0x10000, evring := 0x70000, regions := [(128, BitVec.ofNat 256 (2 ^ 255 + 3 * 2 ^ 253 + 0x30000 * 2 ^ 128 + 0x10000 * 2 ^ 64))] }
  (s.updPart 0 f).updPart 1 f

/-- Berth 0, on which queue 5 is mapped, with some packets left. -/
def frame0 (win : List BundleBits) : Frame := ⟨none, 2, none, win⟩
def berth0 (wr : Nat) (win : List BundleBits) : Berth :=
  { queue := 5, ring := 0x50000, rdptr := 0x48000, job := 0, home := 0, log2n := 6, cls := 1, wr := wr, frames := [frame0 win], barrier := none, cut := 0, curCls := 1,
    passed := 0, after := 0, abortAt := 2, last := 0, hist := [], conf := 0, pred := none, predAge := 0, phase := 0 }
def mapped (b : Berth) : State := { landed with berths := [(0, b)] }

/-- A word in which packets of type PHASE stand. -/
def phaseW : BundleBits := 0x0C

/-- A NOP with its header, a LOOP of 2 packets and 3 passes, and an INDIRECT of one packet. -/
def nopW : BundleBits := BitVec.ofNat 512 hd.enc
def loopW : BundleBits := BitVec.ofNat 512 (8 + 3 * 2 ^ 496 + 2 * 2 ^ 488)
def indW : BundleBits := BitVec.ofNat 512 (7 + 2 ^ 440)

theorem meets_QueueResults_bells :
    (base.boot ≠ .booted ∧ landed.boot = .booted) ∧
    (let s := mapped (berth0 4 [])
     s.berthOf 5 = some 0 ∧ s.berth? 0 = some (berth0 4 []) ∧ (66 : W64).toNat = (berth0 4 []).rd + 2 ^ (berth0 4 []).log2n ∧ (berth0 4 []).wr < (67 : W64).toNat) ∧
    (landed.berths = [] ∧ landed.waitQ = [] ∧ qOk (landed.qdesc 5).1 = true ∧ qState (landed.qdesc 5).1 = 0 ∧
      isOk (landed.landRd (qJob (landed.qdesc 5).1) (qRdptr (landed.qdesc 5).1) 8) 0 = true ∧ 0 + 2 ^ qLog2n (landed.qdesc 5).1 = (64 : W64).toNat) ∧
    (let s := mapped (berth0 2 [])
     s.berth? 0 = some (berth0 2 []) ∧ s.berthIdle (berth0 2 []) = true ∧ (∀ e ∈ s.ctxs, e.2.spec = none) ∧
       isOk (s.translateCold (s.jobXlat 0) .store 0x48000) 0x48000 = true ∧ (mapped (berth0 3 [])).berthIdle (berth0 3 []) = false) ∧
    (let b := { berth0 3 [phaseW] with passed := 4096 }
     (mapped b).berth? 0 = some b ∧ 4096 ≤ b.passed ∧ b.curCls ≠ 0 ∧ (mapped b).ready 0 b = true) ∧
    (let s := { landed with waitQ := [⟨5, 64, 1⟩] }
     s.berths = [] ∧ qOk (s.qdesc 5).1 = true ∧ qState (s.qdesc 5).1 = 0 ∧ isOk (s.landRd (qJob (s.qdesc 5).1) (qRdptr (s.qdesc 5).1) 8) 0 = true ∧
       64 ≤ 0 + 2 ^ qLog2n (s.qdesc 5).1) ∧
    (let s := mapped (berth0 3 [phaseW])
     (∀ e ∈ s.ctxs, e.2.spec = none) ∧ s.ready 0 (berth0 3 [phaseW]) = true ∧ (berth0 3 [phaseW]).curCls < 4 ∧
       ((s.nextPacket (berth0 3 [phaseW])).any fun r => isOk r phaseW) = true ∧ decodePacket phaseW ≠ none) := by decide +kernel

/-- A berth without a packet, and one with a NOP. -/
theorem meets_QueueResults_decision :
    (let s := mapped (berth0 2 [])
     (∀ e ∈ s.ctxs, e.2.spec = none) ∧ ∀ e ∈ s.berths, s.ready e.1 e.2 = false) ∧
    ((frame0 [nopW]).pos < (berth0 3 [nopW]).wr ∧ (frame0 [nopW]).win = nopW :: (frame0 [nopW]).win.tail ∧ decodePacket nopW = some (.nop hd) ∧
      (berth0 3 [nopW]).curCls < 4) := by decide +kernel

/-- A window that a fetch fills, in a LOOP range of two passes and of one left, behind a LOOP, and behind an INDIRECT. -/
theorem meets_QueueResults_fetch :
    (∀ k ∈ [3, 4, 7, 17], isOk (landed.landRd 0 (0x50000 + 64 * k) 64) 0 = true ∧ (berth0 18 []).addrOf (frame0 []) k = 0x50000 + 64 * k ∧ k < (berth0 18 []).wr) ∧
    ((List.replicate 15 phaseW).length < 16 ∧ 17 = (frame0 []).pos + (List.replicate 15 phaseW).length ∧ pf phaseW 7 0 ≠ 7 ∧ pf phaseW 7 0 ≠ 8) ∧
    (∀ n ∈ [2, 1],
      let f : Frame := ⟨none, 5, some (2, 4, n), [phaseW, phaseW]⟩
      f.win.length < 16 ∧ 2 ≤ f.pos ∧ f.pos ≤ 2 + 4 ∧ (f.pos - 2 + f.win.length < 4 * n ↔ n = 2) ∧ 3 = 2 + (f.pos - 2 + f.win.length) % 4 ∧
        7 = 2 + 4 + (f.pos - 2 + f.win.length - 4 * 1)) := by decide +kernel

theorem meets_QueueResults_loops :
    (let f := frame0 [loopW, phaseW, phaseW, phaseW]
     f.loop = none ∧ f.win.length < 16 ∧ pf loopW 7 0 = 8 ∧ pf loopW 511 496 = 3 ∧ pf loopW 495 488 = 2 ∧ [phaseW, phaseW, phaseW].length < 2 * 3 ∧
       4 = f.pos + 1 + [phaseW, phaseW, phaseW].length % 2) ∧
    (let f := frame0 [phaseW, indW]
     f.win = [phaseW] ++ [indW] ∧ pf indW 7 0 = 7 ∧ pf indW 455 440 = 1) := by decide +kernel

/-- ENQ of a free, a full and a foreign queue. -/
theorem meets_QueueResults_enq :
    ∀ e ∈ [(65, 0), (66, 0), (65, 1)],
      let b := { berth0 e.1 [] with job := BitVec.ofNat 16 e.2 }
      let s := (mapped b).setX 6 5
      s.cur.side = .seq ∧ s.cx.spec = none ∧ s.cx.seg.closing = none ∧ s.portBusy = false ∧ (4095 : BitVec 12).toNat * 64 + 64 ≤ s.slmSize ∧
        s.berthOf (s.x 6).toNat = some 0 ∧ s.berth? 0 = some b ∧ (b.job = lJob s.cx.lrec ↔ e.2 = 0) ∧
        (b.wr = b.rd + 2 ^ b.log2n ↔ e.1 = 66) ∧
        isOk (s.translateCold (s.jobXlat 0) .store (b.ring + 64 * (b.wr % 2 ^ b.log2n))) (0x50000 + 64 * (e.1 % 64)) = true := by decide +kernel

/-- The ring block of partition 0: two records at 0x78000, an interrupt after two of them or 1 µs, one record written. -/
def ringB : Nat := 0x78000 * 2 ^ 200 + 2 ^ 195 + 2 * 2 ^ 179 + 2 ^ 163 + 2 ^ 64
def ringing : State := (landed.memWr 0x70000 32 ringB).updPart 0 fun p => { p with irqs := 2, heldRecs := [⟨2 ^ 96, false, none⟩] }

theorem meets_QueueResults_ring :
    isOk (ringing.ringBlock 0) (0, ringB) = true ∧ ringB / 2 ^ 163 % 2 ^ 16 ≠ 0 ∧ max 1 (ringB / 2 ^ 179 % 2 ^ 16) = (ringing.part 0).irqs ∧
      (ringing.part 0).heldRecs = [⟨2 ^ 96, false, none⟩] ∧ ringing.phalt = false ∧
      (ringB / 2 ^ 64 % 2 ^ 64 + 2 ^ 64 - ringB % 2 ^ 64) % 2 ^ 64 < 2 ^ (ringB / 2 ^ 195 % 32) ∧
      isOk (ringing.translateCold (ringing.jobXlat 0) .store 0x78020) 0x78020 = true ∧ ringing.poisonIn 0x78020 32 = false ∧
      (let s := ringing.memWr 0x78020 32 (2 ^ 96)
       isOk (s.translateCold (s.jobXlat 0) .store ((ringing.part 0).evring.toNat + 8)) 0x70008 = true) := by decide +kernel

theorem meets_QueueResults_plain : Plain (mapped (berth0 2 [])) 0x48000 8 ∧ Plain ((mapped (berth0 65 [])).setX 6 5) (0x50000 + 64 * (65 % 64)) 64 ∧
    Plain ringing 0x78020 32 ∧ Plain ringing 0x70008 8 :=
  ⟨plain_low (by decide) rfl, plain_low (by decide) rfl, plain_low (by decide) rfl, plain_low (by decide) rfl⟩

/-- Berth 0 as told, the counted stores, the held records of partition 0, and the phases. -/
def dispB (b : Berth) (u : List (Nat × Nat × Nat)) (l : List HeldRec) (ph : List (Nat × Phase)) : State :=
  { (mapped b).updPart 0 fun p => { p with heldRecs := l } with unacked := u, phases := ph }

theorem disp_fields (b : Berth) (u l ph) : (dispB b u l ph).mem = landed.mem ∧ (dispB b u l ph).jobs = landed.jobs ∧ (dispB b u l ph).ctxs = landed.ctxs ∧
    (dispB b u l ph).poison = landed.poison := by
  simp only [dispB, mapped, State.updPart, and_self]

/-- The pages of job 0: its first GiB is one page. -/
theorem disp_low (b : Berth) (u l ph) : (dispB b u l ph).homeRd 0 8 = 0x10000 + 1 ∧ (dispB b u l ph).homeRd 0x10000 8 = 0x1F ∧ ((dispB b u l ph).job 0).xroot = 0 := by
  have h : landed.homeRd 0 8 = 0x10000 + 1 ∧ landed.homeRd 0x10000 8 = 0x1F ∧ (landed.job 0).xroot = 0 := by decide +kernel
  obtain ⟨e, j, -, -⟩ := disp_fields b u l ph
  have hm (a : Nat) : (dispB b u l ph).homeRd a 8 = landed.homeRd a 8 := Laws.homeRd_congr 8 a fun k _ => by unfold State.memByte; rw [e]
  refine ⟨by rw [hm]; exact h.1, by rw [hm]; exact h.2.1, ?_⟩
  unfold State.job; rw [j]; exact h.2.2

/-- Every berth of one frame in its ring dispatches there a packet without signal and record. -/
theorem meets_PacketResults (b : Berth) (f : Frame) (h : PHdr) (u l ph) (b0 : b.barrier = none) (b1 : b.frames = [f]) (b2 : f.buf = none) (b3 : f.loop = none)
    (b4 : b.job = 0) (b5 : b.rdptr = 0x48000) (h0 : h.csig = 0) (h1 : h.crec = false) : Dispatching (dispB b u l ph) b f h 0x48000 := by
  obtain ⟨m0, m1, hx⟩ := disp_low b u l ph
  obtain ⟨-, ej, ec, -⟩ := disp_fields b u l ph
  have hc : ∀ e ∈ landed.ctxs, e.2.spec = none := by decide +kernel
  have hj : ∀ e ∈ landed.jobs, e.2.closed = true → e.2.reported = true := by decide +kernel
  refine ⟨rfl, b0, b1, b2, b3, rfl, by rw [ec]; exact hc, h0, h1, ⟨?_, fun v => ?_⟩, by unfold JobsReported; rw [ej]; exact hj⟩
  · rw [b4, b5]; exact Laws.translateCold_low _ 0 .store 0x48000 0x10000 (by decide) (by decide) (by decide) hx m0 m1
  · rw [b4, b5]; exact Laws.translateCold_low_memWr _ 0 .store 0x48000 0x10000 0x48000 8 v (by decide) (by decide) (by decide) hx m0 m1 (by decide) (by decide)

/-- The word of a SIGNAL at 0x40000 beside it. -/
theorem meets_PacketResults_words (b : Berth) (u l ph) (k : AccK) (b4 : b.job = 0) (b5 : b.rdptr = 0x48000) :
    TwoWords (dispB b u l ph) b 0x48000 k 0x40000 0x40000 := by
  obtain ⟨m0, m1, hx⟩ := disp_low b u l ph
  have hp : landed.poisonIn 0x40000 8 = false := by decide +kernel
  refine ⟨by decide, plain_low (by decide) rfl, ?_, ?_, fun v w => ⟨?_, ?_, ?_⟩⟩
  · unfold State.poisonIn State.poisonAt at hp ⊢; rw [(disp_fields b u l ph).2.2.2]; exact hp
  all_goals rw [b4]
  · exact Laws.translateCold_low _ 0 k 0x40000 0x10000 (by decide) (by decide) (by decide) hx m0 m1
  · exact Laws.translateCold_low_memWr _ 0 k 0x40000 0x10000 0x48000 8 v (by decide) (by decide) (by decide) hx m0 m1 (by decide) (by decide)
  · rw [b5]; exact Laws.translateCold_low_memWr _ 0 .store 0x48000 0x10000 0x40000 8 w (by decide) (by decide) (by decide) hx m0 m1 (by decide) (by decide)
  · have e := Laws.translateCold_low_memWr ((dispB b u l ph).memWr 0x48000 8 v) 0 .store 0x48000 0x10000 0x40000 8 w (by decide) (by decide) (by decide)
      (by rw [Laws.job_memWr]; exact hx) (by rw [Laws.homeRd_memWr_off _ _ _ _ _ _ (by decide)]; exact m0)
      (by rw [Laws.homeRd_memWr_off _ _ _ _ _ _ (by decide)]; exact m1) (by decide) (by decide)
    rw [Laws.jobXlat_memWr] at e
    rw [b5]; exact e

/-- Signals of a barrier: one at 0x40000, whose value is 0. -/
def bar (c : PCond) : BarrierP := ⟨⟨c, 0x40000, 0⟩, ⟨.eq, 0, 0⟩, ⟨.eq, 0, 0⟩, 1⟩

/-- A launch in progress on partition 0, with packet tag 7. -/
def lp : LaunchP := ⟨0x60000, 0x61000, 1, 0, false⟩
def tsk (k : TaskK) (st : TaskSt) : Task :=
  { kind := k, hdr := hd, berth := 0, queue := 5, job := 0, home := 0, cls := 1, phase := 0, parent := none, st := st, launchId := 0, ctxs := [0], status := 0,
    fault := 0, ucode := 0, cancelled := false, prep := none, writes := [], coll := none }

/-- A berth on which a barrier waits. -/
def barB : Berth := { berth0 3 [] with barrier := some 3 }
def barred (c : PCond) (v : Nat) : State := { (mapped barB).memWr 0x40000 8 v with tasks := [(3, tsk (.barrier (bar c)) .running)] }

/-- Two packets and one before WR, the first in a new phase and in one with a status; stores counted and none. -/
theorem meets_PacketResults_forms :
    (let b := berth0 4 [phaseW, phaseW]
     let s := dispB b [] [⟨0, false, none⟩] []
     (s.part b.home).heldRecs ≠ [] ∧ acked (s.portsFor hd.scope) = true ∧ acked ((dispB b [(0, 1, 2)] [] []).portsFor .sys) = false ∧
       s.rangeSt b 1 = .good ∧ isOk (s.landRd b.job 0x40000 8) 0 = true ∧ b.phase ≤ s.nextTask ∧ (bar .eq).v ≠ 0 ∧ ({ bar .eq with v := 0 } : BarrierP).v = 0) ∧
    (let b := berth0 3 [phaseW]
     (dispB b [] [] []).waitQ = [] ∧ (frame0 [phaseW]).pos + 1 = b.wr) ∧
    (let b := { berth0 4 [phaseW, phaseW] with phase := 1 }
     let ph : Phase := ⟨5, 0, true, 3, false⟩
     b.phase ≠ 0 ∧ b.phase ≤ (dispB b [] [] [(1, ph)]).nextTask ∧ Tbl.get? (dispB b [] [] [(1, ph)]).phases b.phase = some ph) ∧
    (∀ e ∈ [(PCond.eq, 0), (.ne, 0), (.eq, 2 ^ 63)],
      let s := barred e.1 e.2
      s.berths = [(0, barB)] ∧ s.tasks = [(3, tsk (.barrier (bar e.1)) .running)] ∧ barB.barrier = some 3 ∧
        isOk (s.barVals 0 (BarrierP.used (bar e.1))) [(⟨e.1, 0x40000, 0⟩, w64 e.2)] = true ∧ (∀ c ∈ s.ctxs, c.2.spec = none) ∧
        ((w64 e.2).msb = true ↔ e.2 = 2 ^ 63) ∧ (e.2 = 0 → (PCond.holds e.1 (w64 e.2) 0 = true ↔ e.1 = .eq))) ∧
    (let k := tsk (.launch lp) .running
     let s := { mapped (berth0 3 []) with tasks := [(3, k)] }
     s.berths = [(s.cur.berth, berth0 3 [])] ∧ hd.ord = false ∧ s.tasks = [(3, k)] ∧ 3 ≠ s.nextTask ∧ s.launchDone k = false ∧ k.parent = none ∧ k.hdr.tag = 7 ∧
       k.job = (berth0 3 []).job ∧ k.ctxs = [0]) := by
  decide +kernel

/-! ### Work -/

/-- What the Landing reads of the kernel. -/
def kprep : Prep := ⟨0x60000, 0x20000, 0, List.replicate 8 0, [], [], List.replicate 256 0, false, 0, false⟩

def kerneled : State := dispB (berth0 4 [phaseW, phaseW]) [] [] []

/-- A gang of partitions 0 and 1. -/
def gp : GangP := ⟨0x60000, 0x61000, false, 3, 0, false⟩
/-- A copy of n bytes on partition 0. -/
def cp (n : Nat) : CopyP := ⟨0x30000, 0x38000, 0, BitVec.ofNat 40 n⟩

theorem meets_WorkResults_packets :
    (let s := kerneled
     s.kindBad (.launch lp) = false ∧ isOk (s.prepare 0 (.launch lp)) kprep = true ∧ s.partFree lp.part.toNat none = true ∧ kprep.args.length = 256 ∧
       s.kindBad (.gang gp) = false ∧ isOk (s.prepare 0 (.gang gp)) kprep = true ∧ 2 ≤ (bitsOf gp.pmask).length ∧ s.phalt = false ∧
       (cp 64).dst.toNat % 64 = 0 ∧ (cp 0).dst.toNat % 64 = 0 ∧ s.copyStatus 0 (cp 64) = none ∧ (s.die 0).inFlight < 512 ∧ s.copyStatus 0 (cp 0) = some 0 ∧
       isOk (s.landRds 0 64 1 0x62000) [0] = true) ∧
    isOk (kerneled.nodeEntries 0 1 0 [0]) [([], .nop)] = true := by decide +kernel

/-- Tasks that wait for partitions; a graph of one node; a launch that has drained. -/
theorem meets_WorkResults_tasks :
    (let k := { tsk (.launch lp) .waiting with prep := some kprep }
     let s := { kerneled with berths := [], tasks := [(3, k)] }
     s.tasks = [(3, k)] ∧ Tbl.get? s.resvns 3 = none ∧ s.partFree lp.part.toNat none = true ∧ s.phalt = false) ∧
    (let k := { tsk (.gang gp) .waiting with prep := some kprep }
     let s := { kerneled with berths := [], tasks := [(3, k)], resvns := [(3, ⟨[1, 2], [5], 1⟩)] }
     Tbl.get? s.resvns 3 = some ⟨[1, 2], [5], 1⟩ ∧ s.partFree 1 none = true) ∧
    (let k := tsk .graph .running
     let s := { landed with graphs := [(3, ⟨[⟨.nop, [], .ready 0⟩], 0⟩)], tasks := [(3, k)] }
     (∀ e ∈ s.jobs, e.2.closed = true → e.2.reported = true) ∧ s.tasks = [(3, k)] ∧ 3 ≠ s.nextTask ∧ s.berths = [] ∧ k.hdr.csig = 0 ∧ k.hdr.crec = false ∧ k.parent = none) ∧
    (∀ st ∈ [SpecSt.running, .stalled, .finished],
      let r : Spec := ⟨0, ⟨0, 0, 0, 0, false⟩, [], 0, [], st⟩
      let s := (base.setDie 0 (dieOf [])).updCtx 0 fun x => { x with lst := .exited, spec := some r }
      s.drained 0 = true ∧ (s.ctx 0).spec = some r ∧ r.st ≠ .discarding) ∧
    (let k := tsk (.launch lp) .running
     let s := { (landed.setDie 0 (dieOf [])).updCtx 0 fun x => { x with lst := .drained, task := some 3 } with tasks := [(3, k)] }
     s.tasks = [(3, k)] ∧ (s.ctx 0).task = some 3 ∧ k.ctxs = [0] ∧ (s.ctx 0).spec = none ∧ (s.ctx 0).lst = .drained ∧ acked (k.ports.getD (s.portsFor k.hdr.scope)) = true ∧
       (s.ctx 0).gathers = [] ∧ (∀ e ∈ s.jobs, e.2.closed = true → e.2.reported = true) ∧ (s.ctx 0).held = [] ∧ (s.ctx 0).asked = none ∧ (s.ctx 0).bound = [] ∧ (∀ d ∈ s.issueSet 0, (s.die d).cache = []) ∧ s.berths = []) := by decide +kernel

/-- A copy of two units before its first and before its last. -/
theorem meets_WorkResults_copy :
    (∀ n ∈ [0, 1],
      let k := tsk (.copy (cp 128)) .running
      let c := { cmd (.packet 0x30000 0x38000 128 3) true 0 with tout := 0, pos := n }
      let s := { landed.setDie 0 { dieOf [] with cmds := [c] } with tasks := [(3, k)] }
      (∀ e ∈ s.jobs, e.2.closed = true → e.2.reported = true) ∧ s.task? 3 = some k ∧ s.tasks = [(3, k)] ∧ s.berths = [] ∧ s.graphs = [] ∧
        (s.die (cp 128).part.toNat).cmds.find? (·.packetOf 3) = some c ∧ (s.die 0).cache = [] ∧ (c.pos + 1 < (cp 128).len.toNat / 64 ↔ n = 0) ∧
        (c.pos + 1 = (cp 128).len.toNat / 64 ↔ n = 1) ∧ isOk (s.translateCold (s.jobXlat 0) .load ((cp 128).src.toNat + 64 * n)) (0x30000 + 64 * n) = true ∧
        isOk (s.translateCold (s.jobXlat 0) .store ((cp 128).dst.toNat + 64 * n)) (0x38000 + 64 * n) = true):= by decide +kernel

theorem meets_WorkResults_plain : Plain landed 0x30040 64 ∧ Plain landed 0x38040 64 := ⟨plain_low (by decide) rfl, plain_low (by decide) rfl⟩

/-- A berth that predicts the launch with confidence. -/
def berthP : Berth :=
  { berth0 2 [] with pred := some ⟨0x60000, 0x20000, false, false, 1, 0, 0, argHash kprep.args 0, 0x61000⟩, conf := 2 }
def predicting : State := ({ landed with berths := [(0, berthP)] }.memWr 0x60000 64 kheader).updJob 0 fun j => { j with vitcap := 1 }

theorem meets_WorkResults_prediction : predicting.berths = [(0, berthP)] ∧
    predicting.specPlan berthP = some (⟨0x60000, 0x61000, 1, 0, false⟩, kprep, []) ∧ predicting.noRun 0 = true ∧ predicting.ready 0 berthP = false ∧
    kprep.args.length = 256 ∧
    kprep.consts.length ≤ 64 := by
  refine ⟨by unfold predicting State.updJob; rw [Laws.memWr_eq], ?_, by decide +kernel, by decide +kernel, by decide +kernel, by decide +kernel⟩
  have h1 : predicting.readKernel 0 0x60000 0x61000 false = .ok kprep := ok_of (by decide +kernel)
  have h2 : (((predicting.job 0).vitcap != 0) && predicting.partOf 1 0 && predicting.partFree 1 none && !predicting.partWanted 1) = true := by decide +kernel
  have h3 : dontcareBad kprep = false := by decide +kernel
  have h4 : predicting.covers 0 1 kprep.regions = some [] := by decide +kernel
  simp only [Bool.and_eq_true, Bool.not_eq_true'] at h2
  obtain ⟨⟨⟨a, b⟩, c⟩, d⟩ := h2
  have hr : predicting.specRead berthP = some (⟨0x60000, 0x20000, false, false, 1, 0, 0, argHash kprep.args 0, 0x61000⟩, .ok kprep) := by
    unfold State.specRead
    simp only [berthP, berth0, Option.bind_some, show (1 : BitVec 7).toNat = 1 from rfl, a, b, c, d, h1, Bool.not_true, Bool.or_false]
    rfl
  simp only [State.specPlan, hr, h3, show kprep.nospec = false from rfl, show kprep.dontcare = 0 from rfl, bne_self_eq_false, Bool.or_self,
    show berthP.job = 0 from rfl, show (1 : BitVec 7).toNat = 1 from rfl, h4, Option.map_some]
  rfl

/-! ### The host and the secure block -/

theorem meets_HostResults :
    (let s := { base with jobs := [] }
     s.jobs = [] ∧ s.hostDown = false ∧ ([1] : List Byte) ≠ [] ∧ (bellBase - 1) + ([1] : List Byte).length ≤ bellBase) ∧
    ({ base with boot := .rom } : State).boot = .rom ∧ ({ base with boot := .verify } : State).boot = .verify ∧ landed.boot = .booted ∧
    (let k := { tsk (.signal 0x40000 true 5) .running with ctxs := [], ports := some [(0, 1, 2)] }
     let s := { landed with tasks := [(3, k)], unacked := [(0, 1, 2)] }
     (∀ e ∈ s.jobs, e.2.closed = true → e.2.reported = true) ∧ s.tasks = [(3, k)] ∧ s.berths = [] ∧ k.ports = some [(0, 1, 2)] ∧
       isOk (s.translateCold (s.jobXlat 0) .store 0x40000) 0x40000 = true ∧ isOk (s.translateCold (s.jobXlat 0) .atomic 0x40000) 0x40000 = true ∧
       s.poisonIn 0x40000 8 = false) ∧
    (landed.tasks = [] ∧ (landed.ctx 0).wait = .none ∧ landed.boot = .booted) ∧
    (let s := { base with boot := .rom }
     s.caps.length = 8 ∧ s.caps.getD 7 0 = 0) ∧
    (let s := { landed with caps := [0, 0, 0, 0, 0, 0, 0, 0x10000000] }
     s.boot = .booted ∧ s.caps.getD 7 0 ≠ 0 ∧ 7 ∉ s.portsDown ∧ 15 ∉ s.linksDown ∧ s.hostDown = false) ∧
    ((base.ctx 0).lst ≠ .idle ∧ 0 ≠ purser ∧ base.gangDies 0 = [0] ∧ (base.part 0).evsel.length = 56 ∧ (base.part 0).ctrs.length = 64) := by decide +kernel

theorem meets_SecureBlockResults :
    ((10 : W64).toNat = 10 ∧ (10000 : W64).toNat = 10000 ∧ (9 : W64).toNat < 10 ∧ 10000 < (10001 : W64).toNat ∧ base.partsel.toNat < base.nparts) ∧
    ((3 : W64).toNat % 4 = 3 ∧ (2 : W64).toNat % 4 ≠ 3 ∧ ({ base with clkNext := some 1 } : State).clkNext = some 1 ∧
      State.reset.noJob = true ∧ (1 : W64).getLsbD 0 ≠ State.reset.unprot ∧ landed.noJob = false ∧ (0 : W64).getLsbD 0 = base.unprot) ∧
    ((base.part base.partsel.toNat).pjobw ≠ (0x10005 : W64).setWidth 17 ∧ (base.part base.partsel.toNat).pjobw = (0 : W64).setWidth 17 ∧
      (let s := { base with partsel := 127 }
       s.nparts ≤ s.partsel.toNat)) ∧
    ((∀ x ∈ landed.ctxs, x.2.spec = none) ∧ (landed.parts.map (·.1)).Nodup ∧ (landed.part 1).pjob = some 0) ∧
    (landed.tasks = [] ∧ (∀ e ∈ landed.jobs, e.2.closed = true → e.2.reported = true) ∧ (landed.job 1).reported = false ∧ (landed.job 1).home = none ∧
      ∀ p ∈ landed.phases, p.2.job = 1 → p.2.used = false) ∧
    (let s := (landed.updJob 1 fun j => { j with home := some 1 }).updPart 1 fun p => { p with heldRecs := [⟨0, false, none⟩] }
     s.tasks = [] ∧ (s.job 1).reported = false ∧ (s.job 1).home = some 1 ∧ (s.part 1).heldRecs ≠ [] ∧ ∀ p ∈ s.phases, p.2.job = 1 → p.2.used = false) := by
  decide +kernel

end Sys2Proof.Tests
end

section
/-! What the shared operations of a vector slot send: the lanes that take part, the flight of a result, the events of its
quadrants, and the width of its destination (R60, R129, R136, R143, R152). -/

namespace Sys2Proof.Proofs

open Sys2Proof Sys2Proof.Machine Sys2Proof.Claim

/-! ### Lanes -/

theorem mapIdx_eq_map_range {α β : Type} (l : List α) (d : α) (f : Nat → α → β) :
    l.mapIdx f = (List.range l.length).map fun i => f i (l.getD i d) := by
  apply List.ext_getElem
  · rw [List.length_mapIdx, List.length_map, List.length_range]
  · intro i hi _
    rw [List.length_mapIdx] at hi
    rw [List.getElem_mapIdx, List.getElem_map, List.getElem_range, List.getD_eq_getElem?_getD,
      List.getElem?_eq_getElem hi, Option.getD_some]

theorem flatten_map_singleton_ite {α β : Type} (p : α → Bool) (g : α → β) (l : List α) :
    (l.map fun x => if p x then [g x] else []).flatten = (l.filter p).map g := by
  induction l with
  | nil => rfl
  | cons x xs ih => 
    rw [List.map_cons, List.flatten_cons, ih, List.filter_cons]
    cases p x <;> rfl

theorem eachLane_eq_map_range (s : State) (pg : PIdx) (g : Nat → Lane → LaneW × Ev) :
    s.eachLane pg g = (List.range s.dsrc.lanes.length).map fun pos =>
      if Active s pg pos then g pos (s.laneAt pos) else ({}, {}) :=
  mapIdx_eq_map_range s.dsrc.lanes Lane.zero _

@[simp] theorem length_eachLane (s : State) (pg : PIdx) (g : Nat → Lane → LaneW × Ev) :
    (s.eachLane pg g).length = s.dsrc.lanes.length := by
  rw [eachLane_eq_map_range, List.length_map, List.length_range]

theorem getElem_eachLane (s : State) (pg : PIdx) (g : Nat → Lane → LaneW × Ev) (pos : Nat)
    (h : pos < (s.eachLane pg g).length) :
    (s.eachLane pg g)[pos] = if Active s pg pos then g pos (s.laneAt pos) else ({}, {}) := by
  simp only [eachLane_eq_map_range, List.getElem_map, List.getElem_range]

theorem terms_eq_map_filter (s : State) (pg : PIdx) (ty : ETy) (va : Opnd) :
    s.terms pg ty va = ((List.range s.dsrc.lanes.length).filter (Active s pg)).map fun pos =>
      s.val ty va pos (s.laneAt pos) :=
  (congrArg List.flatten (mapIdx_eq_map_range s.dsrc.lanes Lane.zero _)).trans
    (flatten_map_singleton_ite (Active s pg) _ _)

/-! ### The flight of a result -/

/-- The result that `State.fly` puts in flight. -/
def sentFlight (s : State) (ws : BitVec 512) (pw : BitVec 16) (dcs : List (Nat × W64)) (evs : List (Nat × Ev))
    (lanes : List LaneW) : Flight :=
  { bsn := s.pbsn, addr := s.paddr, slot := s.cur.slot, load := false, qm := s.dsrc.qmask, ws := ws, pw := pw,
    lanes := lanes, dcs := dcs, evs := evs.filter fun e => e.2.any }

theorem fly_flies (s : State) (ws : BitVec 512) (pw : BitVec 16) (dcs : List (Nat × W64)) (evs : List (Nat × Ev))
    (lanes : List LaneW) : Flies s (s.fly ws pw dcs evs lanes) (sentFlight s ws pw dcs evs lanes) := by
  refine ⟨rfl, fun d hd => ?_, ?_, rfl, rfl, rfl, rfl⟩
  · exact (Laws.state_die_updDx _ _ d).trans (if_neg hd)
  · have h : (s.fly ws pw dcs evs lanes).dx = { s.dx.wrote s.dsrc.qmask ws s.pbsn s.cur.slot with
        flights := s.dx.flights ++ [sentFlight s ws pw dcs evs lanes] } := Laws.state_dx_updDx _ _
    rw [h]
    rfl

/-- A slot that sends to a list of slices what each lane gives. -/
theorem sendsValue_of_fly {i : Instr} {s : State} {pg : PIdx} {ps : List Nat} {g : Nat → Lane → LaneW × Ev}
    {evs : List (Nat × Ev)} {v : Nat → Lane → Nat} {more : Flight → Prop}
    (hx : exec i s = .next (s.fly (sliceSet ps) 0 [] evs ((s.eachLane pg g).map (·.1))))
    (hg : ∀ pos l, (g pos l).1 = putSlices ps (v pos l))
    (hm : more (sentFlight s (sliceSet ps) 0 [] evs ((s.eachLane pg g).map (·.1)))) :
    SendsValue i s pg ps v more := by
  refine ⟨_, hx, _, fly_flies .., rfl, rfl, rfl, rfl, ?_, fun pos hpos => ?_, hm⟩
  · exact (List.length_map ..).trans (length_eachLane ..)
  · have hlen : pos < (s.eachLane pg g).length := (length_eachLane s pg g).symm ▸ hpos
    simp only [sentFlight, List.getD_eq_getElem?_getD, List.getElem?_map, List.getElem?_eq_getElem hlen,
      getElem_eachLane, Option.map_some, Option.getD_some]
    split
    · exact hg ..
    · rfl

/-! ### Events -/

/-- A kind of exceptional result (R48): none has it at first, events together have it if one of them does. -/
structure IsKind (k : Ev → Bool) : Prop where
  none : k {} = false
  or : ∀ a b, k (a.or b) = (k a || k b)
  any : ∀ a, k a = true → a.any = true

theorem any_eq_true_iff (a : Ev) :
    a.any = true ↔ a.inv = true ∨ a.dz = true ∨ a.ovf = true ∨ a.unf = true := by
  simp only [Ev.any, Bool.or_eq_true, or_assoc]

theorem isKind_inv : IsKind (·.inv) := ⟨rfl, fun _ _ => rfl, fun a h => (any_eq_true_iff a).mpr (.inl h)⟩
theorem isKind_dz : IsKind (·.dz) := ⟨rfl, fun _ _ => rfl, fun a h => (any_eq_true_iff a).mpr (.inr (.inl h))⟩
theorem isKind_ovf : IsKind (·.ovf) := ⟨rfl, fun _ _ => rfl, fun a h => (any_eq_true_iff a).mpr (.inr (.inr (.inl h)))⟩
theorem isKind_unf : IsKind (·.unf) := ⟨rfl, fun _ _ => rfl, fun a h => (any_eq_true_iff a).mpr (.inr (.inr (.inr h)))⟩

theorem IsKind.foldl {k : Ev → Bool} (hk : IsKind k) (l : List (LaneW × Ev)) (e : Ev) :
    k (l.foldl (fun e x => e.or x.2) e) = (k e || l.any fun x => k x.2) := by
  induction l generalizing e with
  | nil => exact (Bool.or_false _).symm
  | cons x xs ih => rw [List.foldl_cons, ih, hk.or, List.any_cons, Bool.or_assoc]

/-- The positions of one quadrant (R122). -/
theorem mem_drop_take_iff_quadrant {α : Type} (l : List α) (q : Nat) (x : α) :
    x ∈ (l.drop (1024 * q)).take 1024 ↔ ∃ pos, ∃ h : pos < l.length, pos / 1024 = q ∧ l[pos] = x := by
  rw [List.mem_take_iff_getElem]
  constructor
  · rintro ⟨j, hj, rfl⟩
    rw [List.length_drop] at hj
    exact ⟨1024 * q + j, by omega, by omega, List.getElem_drop.symm⟩
  · rintro ⟨pos, hpos, hq, rfl⟩
    refine ⟨pos - 1024 * q, by rw [List.length_drop]; omega, ?_⟩
    simp only [List.getElem_drop]
    congr 1
    omega

theorem IsKind.mem_quadEvs {k : Ev → Bool} (hk : IsKind k) (l : List (LaneW × Ev)) (q : Nat) :
    (∃ x, (q, x) ∈ (quadEvs l).filter (fun e => e.2.any) ∧ k x = true) ↔
      q < 4 ∧ ∃ pos, ∃ h : pos < l.length, pos / 1024 = q ∧ k l[pos].2 = true := by
  have hq : ∀ x, ((q, x) ∈ (quadEvs l).filter (fun e => e.2.any) ∧ k x = true) ↔
      q < 4 ∧ ((l.drop (1024 * q)).take 1024).foldl (fun e x => e.or x.2) {} = x ∧ k x = true := by
    intro x
    simp only [quadEvs, upto, List.mem_filter, List.mem_map, List.mem_range, Prod.mk.injEq]
    constructor
    · rintro ⟨⟨⟨_, h4, rfl, hx⟩, -⟩, hkx⟩
      exact ⟨h4, hx, hkx⟩
    · rintro ⟨h4, hx, hkx⟩
      exact ⟨⟨⟨q, h4, rfl, hx⟩, hk.any x hkx⟩, hkx⟩
  simp only [hq, exists_and_left, exists_eq_left', hk.foldl, hk.none, Bool.false_or, List.any_eq_true,
    mem_drop_take_iff_quadrant]
  constructor
  · rintro ⟨h4, x, ⟨pos, hq', h, rfl⟩, hkx⟩
    exact ⟨h4, pos, hq', h, hkx⟩
  · rintro ⟨h4, pos, hq', h, hkx⟩
    exact ⟨h4, _, ⟨pos, hq', h, rfl⟩, hkx⟩

theorem IsKind.raised {k : Ev → Bool} (hk : IsKind k) (s : State) (pg : PIdx) (g : Nat → Lane → LaneW × Ev)
    (ws : BitVec 512) (lanes : List LaneW) :
    Raised s pg (fun pos l => (g pos l).2) (sentFlight s ws 0 [] (quadEvs (s.eachLane pg g)) lanes) k := by
  intro q
  refine (hk.mem_quadEvs _ q).trans (and_congr_right fun _ => exists_congr fun pos => ?_)
  simp only [getElem_eachLane, length_eachLane, exists_prop]
  refine and_congr_right fun _ => and_congr_right fun _ => ?_
  cases Active s pg pos
  · simp only [Bool.false_eq_true, if_false, hk.none, false_and]
  · simp only [if_true, true_and]

/-! ### Widths -/

theorem wrap_natCast (w n : Nat) : wrap w (n : Int) = n % 2 ^ w := by
  rw [wrap, ← Int.natCast_emod, Int.toNat_natCast]

theorem wrap_add_mul_two_pow (w : Nat) (v k : Int) : wrap w (v + k * (2 ^ w : Nat)) = wrap w v := by
  rw [wrap, Int.add_mul_emod_self_right, wrap]

theorem wrap_sub_two_pow_of_le {w b : Nat} (n : Nat) (h : w ≤ b) : wrap w ((n : Int) - 2 ^ b) = n % 2 ^ w := by
  have hsplit : (2 : Int) ^ b = (2 ^ (b - w) : Nat) * (2 ^ w : Nat) := by
    rw [← Int.natCast_mul, ← Nat.pow_add, Nat.sub_add_cancel h]
    exact (Int.natCast_pow 2 b).symm
  rw [hsplit, Int.sub_eq_add_neg, ← Int.neg_mul, wrap_add_mul_two_pow, wrap_natCast]

theorem wrap_sub_two_pow_of_lt {w b n : Nat} (h : b < w) (hn : n < 2 ^ b) :
    wrap w ((n : Int) - 2 ^ b) = n + 2 ^ w - 2 ^ b := by
  have hlt : 2 ^ b < 2 ^ w := Nat.pow_lt_pow_right (by decide) h
  have hcast : (n : Int) - 2 ^ b = (n + 2 ^ w - 2 ^ b : Nat) + -1 * (2 ^ w : Nat) := by
    have hb : (2 : Int) ^ b = (2 ^ b : Nat) := (Int.natCast_pow 2 b).symm
    omega
  rw [hcast, wrap_add_mul_two_pow, wrap_natCast, Nat.mod_eq_of_lt (by omega)]

/-- The sign at the width of the type is what extends to a wider destination, and is lost in a narrower one (R129). -/
theorem outVal_eq_widen (ty : ETy) (w : Width) {n : Nat} (h : n < 2 ^ ty.bits) :
    outVal ty w.bits n = widen ty w n := by
  unfold outVal widen intVal
  simp only [Nat.mod_eq_of_lt h, Bool.and_eq_true, decide_eq_true_eq]
  by_cases hw : w.bits ≤ ty.bits
  · rw [if_pos hw]
    split
    · exact wrap_sub_two_pow_of_le n hw
    · exact wrap_natCast ..
  · have hlt : 2 ^ ty.bits < 2 ^ w.bits := Nat.pow_lt_pow_right (by decide) (Nat.lt_of_not_le hw)
    rw [if_neg hw]
    split
    · exact wrap_sub_two_pow_of_lt (Nat.lt_of_not_le hw) h
    · rw [wrap_natCast, Nat.mod_eq_of_lt (Nat.lt_trans h hlt)]

/-- A lane-wise operation sends its results, widened to the destination, and their events. -/
theorem sends_of_vecOut {i : Instr} {s : State} {pg : PIdx} {ty : ETy} {vd : Dst} {f : Nat → Lane → Nat × Ev}
    (hx : exec i s = .next (s.vecOut pg ty vd f)) (hf : ∀ pos l, (f pos l).1 < 2 ^ ty.bits) :
    Sends i s pg (s.dsrc.physD vd) (fun pos l => widen ty vd.w (f pos l).1) (fun pos l => (f pos l).2) := by
  refine sendsValue_of_fly hx (fun pos l => congrArg _ (outVal_eq_widen ty vd.w (hf pos l))) ?_
  have raised {k : Ev → Bool} (hk : IsKind k) := hk.raised s pg (fun pos l =>
    (putSlices (s.dsrc.physD vd) (outVal ty vd.w.bits (f pos l).1), (f pos l).2)) (sliceSet (s.dsrc.physD vd))
  exact ⟨raised isKind_inv _, raised isKind_dz _, raised isKind_ovf _, raised isKind_unf _⟩

end Sys2Proof.Proofs
end

section
/-! The finite values of the formats, the sum of a long accumulator, and its one rounding (R37, R38, R55, R57). -/

namespace Sys2Proof.Proofs

open Sys2Proof Sys2Proof.Machine

/-! ### Finite values -/

/-- The exponent of the least significant bit of the largest finite values of a format: an infinity takes the top code, so a
format without one reaches one further (R37, R38). -/
def topExp (f : Fmt) : Int := f.qmin + ((2 ^ f.ebits - if f.noInf then 2 else 3 : Nat) : Int)

theorem bounds_of_dec_eq_fin {f : Fmt} {x : Nat} {neg : Bool} {m : Nat} {e : Int} (h : FV.dec f x = .fin neg m e) :
    f.qmin ≤ e ∧ e ≤ topExp f ∧ m < 2 ^ (f.fbits + 1) := by
  have hsign : f.signBit = 2 ^ f.fbits * 2 ^ f.ebits := by rw [Fmt.signBit, Nat.add_comm, Nat.pow_add]
  have hmag : x % f.signBit < f.signBit := Nat.mod_lt _ (Nat.two_pow_pos _)
  have hex : x % f.signBit / 2 ^ f.fbits < 2 ^ f.ebits := Nat.div_lt_of_lt_mul (Nat.lt_of_lt_of_eq hmag hsign)
  have hfr : x % f.signBit % 2 ^ f.fbits < 2 ^ f.fbits := Nat.mod_lt _ (Nat.two_pow_pos _)
  have hpow : 2 ^ (f.fbits + 1) = 2 * 2 ^ f.fbits := Nat.pow_succ'
  simp only [FV.dec] at h
  generalize x % f.signBit / 2 ^ f.fbits = ex at hex h
  split at h
  · cases h
  · split at h
    · split at h <;> cases h
    · next hinf =>
      simp only [Bool.and_eq_true, Bool.not_eq_true', beq_iff_eq, not_and] at hinf
      unfold topExp
      split at h
      · cases h
        exact ⟨Int.le_refl _, Int.le_add_of_nonneg_right (Int.natCast_nonneg _), by omega⟩
      · next hsub =>
        rw [beq_iff_eq] at hsub
        cases h
        refine ⟨by omega, ?_, by omega⟩
        cases hno : f.noInf
        · have := hinf hno
          simp only [Bool.false_eq_true, if_false]
          omega
        · simp only [if_true]
          omega

theorem fmtOf_range {ty : ETy} (h : ty.isF = true) :
    -149 ≤ (fmtOf ty).qmin ∧ (fmtOf ty).fbits + 1 + (topExp (fmtOf ty) + 149).toNat ≤ 277 := by
  cases ty with
  | fp8a | fp8b | bf16 | fp16 | fp32 => decide
  | _ => cases h

theorem mul_two_pow_lt {m p k n : Nat} (hm : m < 2 ^ p) (h : p + k ≤ n) : m * 2 ^ k < 2 ^ n :=
  calc m * 2 ^ k < 2 ^ p * 2 ^ k := Nat.mul_lt_mul_of_pos_right hm (Nat.two_pow_pos k)
    _ = 2 ^ (p + k) := (Nat.pow_add ..).symm
    _ ≤ 2 ^ n := Nat.pow_le_pow_right (by decide) h

/-- Every finite value of an F type is a multiple of 2^−149 below 2^128 (R55). -/
theorem finite_in_range {ty : ETy} {x : Nat} {neg : Bool} {m : Nat} {e : Int} (hF : ty.isF = true)
    (h : FV.dec (fmtOf ty) x = .fin neg m e) : -149 ≤ e ∧ m * 2 ^ (e + 149).toNat < 2 ^ 277 := by
  obtain ⟨hlo, hhi, hm⟩ := bounds_of_dec_eq_fin h
  obtain ⟨hq, htop⟩ := fmtOf_range hF
  exact ⟨by omega, mul_two_pow_lt (n := 277) hm (by omega)⟩

/-! ### The sum -/

/-- r is the sum of an accumulator and an integer, with `o` the added one's overflow bit (R55). -/
def IsSum (l r : Lacc) (v : Int) (o : Bool) : Prop :=
  r.val = l.val + BitVec.ofInt 320 v ∧
    r.ovf = (l.ovf || o || decide (l.val.toInt + v < -2 ^ 319 ∨ 2 ^ 319 ≤ l.val.toInt + v))

theorem addInt_val (l : Lacc) (v : Int) : (l.addInt v).val = l.val + BitVec.ofInt 320 v := by
  simp only [Lacc.addInt, BitVec.ofInt_add, BitVec.ofInt_toInt]

theorem addInt_ovf (l : Lacc) (v : Int) :
    (l.addInt v).ovf = (l.ovf || decide (l.val.toInt + v < -2 ^ 319 ∨ 2 ^ 319 ≤ l.val.toInt + v)) := by
  have hpow : ((2 ^ 319 : Nat) : Int) = 2 ^ 319 := Int.natCast_pow 2 319
  simp only [Lacc.addInt, hpow, Bool.decide_or]

theorem addF_fin_isSum (l : Lacc) (neg : Bool) (m : Nat) (e : Int) :
    IsSum l (l.addF (.fin neg m e))
      (if neg then -(m * 2 ^ (e + 160).toNat : Int) else m * 2 ^ (e + 160).toNat) false :=
  ⟨addInt_val .., by rw [Bool.or_false]; exact addInt_ovf ..⟩

theorem addL_isSum (l k : Lacc) : IsSum l (l.addL k) k.val.toInt k.ovf :=
  ⟨addInt_val .., (congrArg (· || k.ovf) (addInt_ovf l k.val.toInt)).trans (Bool.or_right_comm ..)⟩

@[simp] theorem laccZero_bits : Lacc.zero.bits = 0 := by
  simp only [Lacc.bits, Lacc.zero, Lacc.bits.b2, BitVec.ofNat_eq_ofNat, BitVec.toNat_zero, Bool.false_eq_true, if_false,
    Nat.mul_zero, Nat.add_zero, Nat.zero_mul]

/-! ### The rounding -/

section
variable {l : Lacc} {f : Fmt} {mode : RM}

theorem round_of_nan (h : l.nan = true) : l.round f mode = (f.nanBits, {}) := by
  simp only [Lacc.round, h, Bool.true_or, if_true, Bool.not_true]

theorem round_of_both_inf (hn : l.nan = false) (hp : l.pinf = true) (hm : l.ninf = true) :
    l.round f mode = (f.nanBits, { inv := true }) := by
  simp only [Lacc.round, hn, hp, hm, Bool.and_true, Bool.or_true, if_true, Bool.not_false]

theorem round_of_ovf (hn : l.nan = false) (hi : (l.pinf && l.ninf) = false) (ho : l.ovf = true) :
    l.round f mode = (f.nanBits, { ovf := true }) := by simp only [Lacc.round, hn, hi, ho]; rfl

theorem round_of_pinf (hn : l.nan = false) (hi : (l.pinf && l.ninf) = false) (ho : l.ovf = false) (hp : l.pinf = true) :
    l.round f mode = (signed f false f.infBits, {}) := by
  have hm : l.ninf = false := by rwa [hp, Bool.true_and] at hi
  simp only [Lacc.round, hn, ho, hp, hm, Bool.and_false, Bool.or_false, Bool.false_eq_true, if_false, if_true]

theorem round_of_ninf (hn : l.nan = false) (hi : (l.pinf && l.ninf) = false) (ho : l.ovf = false) (hm : l.ninf = true) :
    l.round f mode = (signed f true f.infBits, {}) := by
  have hp : l.pinf = false := by rwa [hm, Bool.and_true] at hi
  simp only [Lacc.round, hn, ho, hp, hm, Bool.false_and, Bool.or_false, Bool.false_eq_true, if_false, if_true]

theorem round_of_finite (hn : l.nan = false) (ho : l.ovf = false) (hp : l.pinf = false) (hm : l.ninf = false) :
    l.round f mode = if l.val = 0 then (0, {}) else
      roundFin f mode false (decide (l.val.toInt < 0)) l.val.toInt.natAbs (-160) := by
  simp only [Lacc.round, hn, ho, hp, hm, Bool.and_self, Bool.or_self, Bool.false_eq_true, if_false]

end

/-! ### Encodings stay within their format -/

/-- The special encodings of a format lie below its sign bit (R39). -/
structure Fits (f : Fmt) : Prop where
  inf : f.infBits < f.signBit
  nan : f.nanBits < f.signBit
  max : f.maxBits < f.signBit

theorem fp32_fits : Fits .fp32 := ⟨by decide, by decide, by decide⟩

theorem two_mul_signBit (f : Fmt) : 2 * f.signBit = 2 ^ f.width := by
  rw [Fmt.signBit, Fmt.width, Nat.add_assoc, Nat.pow_add 2 1, Nat.pow_one]

theorem signed_lt {f : Fmt} {b : Nat} (neg : Bool) (h : b < f.signBit) : signed f neg b < 2 ^ f.width := by
  rw [← two_mul_signBit]
  unfold signed
  split <;> omega

theorem lt_two_pow_width {f : Fmt} {b : Nat} (h : b < f.signBit) : b < 2 ^ f.width := signed_lt (f := f) false h

theorem overflowBits_lt {f : Fmt} (hf : Fits f) (mode : RM) (clamp neg : Bool) :
    overflowBits f mode clamp neg < 2 ^ f.width := by
  unfold overflowBits
  extract_lets toInf
  split
  · split
    · exact lt_two_pow_width hf.nan
    · exact signed_lt _ hf.inf
  · exact signed_lt _ hf.max

theorem roundFin_lt {f : Fmt} (hf : Fits f) (mode : RM) (clamp neg : Bool) (m : Nat) (e : Int) :
    (roundFin f mode clamp neg m e).1 < 2 ^ f.width := by
  simp only [roundFin]
  split
  · exact signed_lt _ (Nat.zero_lt_of_lt hf.inf)
  · split
    · exact overflowBits_lt hf ..
    · next h => exact signed_lt _ (Nat.lt_of_le_of_lt (Nat.le_of_not_lt h) hf.max)

theorem round_lt {f : Fmt} (hf : Fits f) (l : Lacc) (mode : RM) : (l.round f mode).1 < 2 ^ f.width := by
  unfold Lacc.round
  split
  · exact lt_two_pow_width hf.nan
  split
  · exact lt_two_pow_width hf.nan
  split
  · exact signed_lt false hf.inf
  split
  · exact signed_lt true hf.inf
  split
  · exact Nat.two_pow_pos _
  · exact roundFin_lt hf ..

end Sys2Proof.Proofs
end

section
/-! Long accumulators, die conditions and views as the slots execute them (R168 to R172). -/

namespace Sys2Proof.Proofs

open Sys2Proof Sys2Proof.Machine Sys2Proof.Claim

/-! ### Long accumulators (R168, R169) -/

theorem exec_vladd (a : VLaddA) (s : State) : exec (.vladd a) s = execVladd a s := rfl
theorem exec_vlrnd (a : VLrndA) (s : State) : exec (.vlrnd a) s = execVlrnd a s := rfl
theorem exec_vlclr (pg : PIdx) (vd : BitVec 9) (s : State) : exec (.vlclr pg vd) s = execVlclr pg vd s := rfl
theorem exec_vcond (a : VCondA) (s : State) : exec (.vcond a) s = execVcond a s := rfl
theorem exec_vview (vw : BitVec 3) (xa : Reg) (s : State) : exec (.vview vw xa) s = execVview vw xa s := rfl

theorem sendsQuiet_of_laccOut {i : Instr} {s : State} {pg : PIdx} {vd : BitVec 9} {f : Nat → Lane → Lacc}
    (hx : exec i s = .next (s.laccOut pg vd f)) :
    SendsQuiet i s pg (s.dsrc.phys vd.toNat 84) fun pos l => (f pos l).bits :=
  sendsValue_of_fly hx (fun _ _ => rfl) rfl

theorem vlclr_sendsQuiet (pg : PIdx) (vd : BitVec 9) (s : State) :
    SendsQuiet (.vlclr pg vd) s pg (s.dsrc.phys vd.toNat 84) fun _ _ => 0 := by
  simpa only [laccZero_bits] using sendsQuiet_of_laccOut (exec_vlclr pg vd s)

theorem vladd_val_sendsQuiet (pg : PIdx) (vd va : BitVec 9) (ty : ETy) (o : Opnd) (s : State) :
    SendsQuiet (.vladd ⟨pg, vd, va, .val ty o⟩) s pg (s.dsrc.phys vd.toNat 84) fun pos l =>
      ((s.lacc va l).addF (elemFV ty (s.val ty o pos l))).bits :=
  sendsQuiet_of_laccOut (exec_vladd _ s)

theorem vladd_lacc_sendsQuiet (pg : PIdx) (vd va st : BitVec 9) (s : State) :
    SendsQuiet (.vladd ⟨pg, vd, va, .lacc st⟩) s pg (s.dsrc.phys vd.toNat 84) fun _ l =>
      ((s.lacc va l).addL (s.lacc st l)).bits :=
  sendsQuiet_of_laccOut (exec_vladd _ s)

theorem vlrnd_sends (a : VLrndA) (s : State) :
    Sends (.vlrnd a) s a.pg (s.dsrc.physD a.vd) (fun _ l => widen .fp32 a.vd.w ((s.lacc a.va l).round .fp32 s.smode).1)
      fun _ l => ((s.lacc a.va l).round .fp32 s.smode).2 :=
  sends_of_vecOut (exec_vlrnd a s) fun _ _ => round_lt fp32_fits ..

/-! ### Die conditions (R170) -/

theorem vcond_of_qmask_zero (a : VCondA) {s : State} (h : s.dsrc.qmask = 0) : exec (.vcond a) s = .next s := by
  rw [exec_vcond, execVcond, if_pos h]

theorem vcond_of_qmask_ne_zero (a : VCondA) {s : State} (h : s.dsrc.qmask ≠ 0) :
    exec (.vcond a) s = .next (s.fly 0 0 [(a.dc.toNat, (condVal a.op a.ty s.smode (s.terms a.pg a.ty a.va)).1)]
      [(s.dsrc.lowQuad, (condVal a.op a.ty s.smode (s.terms a.pg a.ty a.va)).2)] []) := by
  rw [exec_vcond, execVcond, if_neg h]

theorem condVal_quiet {op : CondOp} (h : op ≠ .fsum) (ty : ETy) (m : RM) (t : List Nat) : (condVal op ty m t).2 = {} := by
  cases op with
  | fsum => exact absurd rfl h
  | or | and | isum | fmax | fmin => rfl

theorem condVal_or (ty : ETy) (m : RM) (t : List Nat) :
    (condVal .or ty m t).1 = if ∃ u ∈ t, nonzero ty u = true then 1 else 0 := by
  simp only [condVal, List.any_eq_true]

theorem condVal_and (ty : ETy) (m : RM) (t : List Nat) :
    (condVal .and ty m t).1 = if ∀ u ∈ t, nonzero ty u = true then 1 else 0 := by
  simp only [condVal, List.all_eq_true]

theorem foldl_add_ofInt (g : Nat → Int) (t : List Nat) (a : W64) :
    t.foldl (fun a v => a + BitVec.ofInt 64 (g v)) a = a + BitVec.ofInt 64 (t.map g).sum := by
  induction t generalizing a with
  | nil => exact (BitVec.add_zero a).symm
  | cons x xs ih => rw [List.foldl_cons, ih, List.map_cons, List.sum_cons, BitVec.ofInt_add, BitVec.add_assoc]

theorem condVal_isum (ty : ETy) (m : RM) (t : List Nat) :
    (condVal .isum ty m t).1 = BitVec.ofInt 64 (t.map (tval ty)).sum :=
  (foldl_add_ofInt (tval ty) t 0).trans (BitVec.zero_add _)

/-! ### Views (R171, R172) -/

theorem vview_at_seq_ok (vw : BitVec 3) {xa : Reg} {s : State} (h : s.cur.side = .seq) (hv : vwOk (s.x xa) = true) :
    exec (.vview vw xa) s = .next s := by
  simp only [exec_vview, execVview, h, hv, if_true]

theorem vview_at_seq_bad (vw : BitVec 3) {xa : Reg} {s : State} (h : s.cur.side = .seq) (hv : vwOk (s.x xa) = false) :
    exec (.vview vw xa) s = .next (s.takeTrap { cause := 0x000B }) := by
  simp only [exec_vview, execVview, h, hv, Bool.false_eq_true, if_false]

theorem vview_at_die (vw : BitVec 3) (xa : Reg) {s : State} (h : s.cur.side = .die) :
    exec (.vview vw xa) s = .next (s.updDx fun y =>
      { y with regs := { y.regs with views := y.regs.views.set vw.toNat (s.px xa) },
               bad := y.bad.filter (· != .view vw.toNat) }) := by
  simp only [exec_vview, execVview, h]

/-- Settles O25: the sum and the rounding case by case from `Lacc`'s own lemmas, and each slot from what it sends. -/
theorem accumulatorAndViewResults : Obligations.AccumulatorAndViewResults := by
  unfold Obligations.AccumulatorAndViewResults
  refine ⟨fun ty x neg m e => finite_in_range, fun l k => ⟨fun neg m e _ => ?_, rfl, rfl, rfl, ?_⟩, fun l m => ?_,
    fun s a r pg vd c vw xa => ?_⟩
  · exact ⟨addF_fin_isSum .., rfl, rfl, rfl⟩
  · exact ⟨addL_isSum l k, rfl, rfl, rfl⟩
  · refine ⟨round_of_nan, round_of_both_inf, fun ⟨hn, hi⟩ => round_of_ovf hn hi, fun ⟨hn, hi⟩ ho =>
      ⟨round_of_pinf hn hi ho, round_of_ninf hn hi ho, fun hp hm => ?_⟩⟩
    rw [round_of_finite hn ho hp hm]
    exact ⟨fun h => if_pos h, fun h => if_neg h⟩
  · refine ⟨vlclr_sendsQuiet pg vd s, ?vladd, vlrnd_sends r s, vcond_of_qmask_zero c, fun hq => ?vcond, fun hs => ?vview,
      vview_at_seq_ok vw, vview_at_seq_bad vw⟩
    case vladd =>
      obtain ⟨pg, vd, va, src⟩ := a
      cases src with
      | val ty o => exact vladd_val_sendsQuiet pg vd va ty o s
      | lacc st => exact vladd_lacc_sendsQuiet pg vd va st s
    case vcond =>
      refine ⟨_, vcond_of_qmask_ne_zero c hq, _, _, fly_flies .., rfl, rfl, rfl, rfl, rfl, fun hop => ?_, ?_⟩
      · simp only [sentFlight, condVal_quiet hop]
        rfl
      · rw [← terms_eq_map_filter]
        cases c.op with
        | or => exact condVal_or ..
        | and => exact condVal_and ..
        | isum => exact condVal_isum ..
        | fmax | fmin | fsum => rfl
    case vview =>
      refine ⟨_, vview_at_die vw xa hs, rfl, fun d hd => ?_, ?_⟩
      · exact (Laws.state_die_updDx _ _ d).trans (if_neg hd)
      · rw [Laws.state_dx_updDx]

end Sys2Proof.Proofs
end

section
/-! The values of the integer register operations (R35, R36, R98 to R100). -/

namespace Sys2Proof.Proofs

open Sys2Proof Sys2Proof.Machine

/-! ### Division (R35) -/

theorem intVal_signed {w : Nat} (a : BitVec w) : intVal true w a.toNat = a.toInt := by
  have hpow : ((2 ^ w : Nat) : Int) = 2 ^ w := Int.natCast_pow 2 w
  simp only [intVal, BitVec.toNat_mod_cancel, Bool.true_and, BitVec.toInt_eq_msb_cond, BitVec.msb_eq_decide, hpow]

theorem intVal_unsigned {w : Nat} (a : BitVec w) : intVal false w a.toNat = a.toNat := by
  simp only [intVal, BitVec.toNat_mod_cancel, Bool.false_and, Bool.false_eq_true, if_false]

theorem ofNat_wrap (w : Nat) (v : Int) : BitVec.ofNat w (wrap w v) = BitVec.ofInt w v := by
  rw [wrap, ← BitVec.toNat_ofInt, BitVec.ofNat_toNat, BitVec.setWidth_eq]

theorem ofNat_two_pow_sub_one (w : Nat) : BitVec.ofNat w (2 ^ w - 1) = BitVec.allOnes w :=
  BitVec.eq_of_toNat_eq <| by
    rw [BitVec.toNat_ofNat, BitVec.toNat_allOnes, Nat.mod_eq_of_lt (Nat.sub_lt (Nat.two_pow_pos w) Nat.one_pos)]

theorem toNat_mod_eq_zero_iff {w : Nat} (b : BitVec w) : b.toNat % 2 ^ w = 0 ↔ b = 0 := by
  rw [BitVec.toNat_mod_cancel, BitVec.toNat_eq, BitVec.ofNat_eq_ofNat, BitVec.toNat_zero]

/-- A zero divisor gives all ones, any other the quotient truncated towards zero. -/
theorem ofNat_intDiv {w : Nat} (sg : Bool) (a b : BitVec w) :
    BitVec.ofNat w (intDiv sg w a.toNat b.toNat).1 =
      if b = 0 then BitVec.allOnes w else BitVec.ofInt w ((intVal sg w a.toNat).tdiv (intVal sg w b.toNat)) := by
  simp only [intDiv, toNat_mod_eq_zero_iff]
  split
  · exact ofNat_two_pow_sub_one w
  · exact ofNat_wrap ..

/-- A zero divisor gives the dividend, any other the remainder with the dividend's sign. -/
theorem ofNat_intRem {w : Nat} (sg : Bool) (a b : BitVec w) :
    BitVec.ofNat w (intRem sg w a.toNat b.toNat) =
      if b = 0 then a else BitVec.ofInt w ((intVal sg w a.toNat).tmod (intVal sg w b.toNat)) := by
  simp only [intRem, toNat_mod_eq_zero_iff]
  split
  · rw [BitVec.toNat_mod_cancel, BitVec.ofNat_toNat, BitVec.setWidth_eq]
  · exact ofNat_wrap ..

/-! ### Shifts, minima and maxima (R36) -/

theorem sraW_eq_sshiftRight_min (a : W64) (n : Nat) : sraW a n = a.sshiftRight (min n 63) := by
  have hcount : (if 64 ≤ n then 63 else n) = min n 63 := by split <;> omega
  rw [sraW, hcount]

/-- Where one test passes and a stricter one fails, a choice that gives the same either way may be made by either test. -/
theorem ite_eq_ite_of_imp {p q : Prop} [Decidable p] [Decidable q] {γ : Type} {x y : γ} (hpq : p → q)
    (h : q → ¬ p → x = y) : (if p then x else y) = if q then x else y := by
  by_cases hq : q
  · by_cases hp : p
    · rw [if_pos hp, if_pos hq]
    · rw [if_neg hp, if_pos hq, h hq hp]
  · rw [if_neg fun hp => hq (hpq hp), if_neg hq]

theorem ite_slt_eq_ite_le {w : Nat} {γ : Type} {a b : BitVec w} {x y : γ} (h : a = b → x = y) :
    (if a.slt b then x else y) = if a.toInt ≤ b.toInt then x else y := by
  simp only [BitVec.slt_iff_toInt_lt]
  exact ite_eq_ite_of_imp Int.le_of_lt fun hle hlt =>
    h (BitVec.toInt_inj.mp (Int.le_antisymm hle (Int.not_lt.mp hlt)))

theorem ite_ult_eq_ite_le {w : Nat} {γ : Type} {a b : BitVec w} {x y : γ} (h : a = b → x = y) :
    (if a.ult b then x else y) = if a.toNat ≤ b.toNat then x else y := by
  simp only [BitVec.ult_iff_toNat_lt]
  exact ite_eq_ite_of_imp Nat.le_of_lt fun hle hlt =>
    h (BitVec.toNat_inj.mp (Nat.le_antisymm hle (Nat.le_of_not_lt hlt)))

/-! ### Counts of bits (R98) -/

theorem popN_eq_length_filter (v n : Nat) : popN v n = ((List.range n).filter fun i => v.testBit i).length := by
  induction n with
  | zero => rfl
  | succ n ih =>
    rw [popN, ih, List.range_succ, List.filter_append, List.length_append, List.filter_cons, List.filter_nil, Nat.add_comm]
    cases v.testBit n <;> rfl

theorem clzN_le (v n : Nat) : clzN v n ≤ n := by
  induction n with
  | zero => exact Nat.le_refl 0
  | succ n ih => rw [clzN]; split <;> omega

theorem testBit_eq_false_of_clzN (v : Nat) {n i : Nat} (hi : n - clzN v n ≤ i) (hn : i < n) : v.testBit i = false := by
  induction n with
  | zero => exact absurd hn (Nat.not_lt_zero i)
  | succ n ih =>
    rw [clzN] at hi
    split at hi
    · omega
    next htop =>
      rcases Nat.lt_succ_iff_lt_or_eq.mp hn with h | rfl
      · exact ih (by omega) h
      · exact Bool.eq_false_iff.mpr htop

theorem testBit_of_clzN_lt (v : Nat) {n : Nat} (h : clzN v n < n) : v.testBit (n - 1 - clzN v n) = true := by
  induction n with
  | zero => exact absurd h (Nat.not_lt_zero _)
  | succ n ih =>
    rw [clzN] at h ⊢
    split at h
    next htop => simpa only [if_pos htop, Nat.add_sub_cancel, Nat.sub_zero] using htop
    next htop =>
      have hlow := ih (by omega)
      rwa [if_neg htop, Nat.add_sub_cancel, ← Nat.sub_sub]

end Sys2Proof.Proofs
end

section
/-! The integer register operations as the S slot executes them (R98 to R100). -/

namespace Sys2Proof.Proofs

open Sys2Proof Sys2Proof.Machine

section
variable (s : State) (xd xa xb : Reg)

theorem exec_add : exec (.add xd xa xb) s = .next (s.setX xd (s.x xa + s.x xb)) := rfl
theorem exec_sub : exec (.sub xd xa xb) s = .next (s.setX xd (s.x xa - s.x xb)) := rfl
theorem exec_mul : exec (.mul xd xa xb) s = .next (s.setX xd (s.x xa * s.x xb)) := rfl

theorem exec_mulh : exec (.mulh xd xa xb) s =
    .next (s.setX xd (BitVec.ofInt 64 ((s.x xa).toInt * (s.x xb).toInt / 2 ^ 64))) := rfl

theorem exec_mulhn : exec (.mulhn xd xa xb) s =
    .next (s.setX xd (BitVec.ofNat 64 ((s.x xa).toNat * (s.x xb).toNat / 2 ^ 64))) := rfl

theorem exec_div : exec (.div xd xa xb) s = .next (s.setX xd
    (if s.x xb = 0 then BitVec.allOnes 64 else BitVec.ofInt 64 ((s.x xa).toInt.tdiv (s.x xb).toInt))) := by
  have hv := ofNat_intDiv true (s.x xa) (s.x xb)
  rw [intVal_signed, intVal_signed] at hv
  exact congrArg (putX s xd) hv

theorem exec_divn : exec (.divn xd xa xb) s = .next (s.setX xd
    (if s.x xb = 0 then BitVec.allOnes 64 else BitVec.ofNat 64 ((s.x xa).toNat / (s.x xb).toNat))) := by
  have hv := ofNat_intDiv false (s.x xa) (s.x xb)
  rw [intVal_unsigned, intVal_unsigned, ← Int.ofNat_tdiv, BitVec.ofInt_natCast] at hv
  exact congrArg (putX s xd) hv

theorem exec_rem : exec (.rem xd xa xb) s = .next (s.setX xd
    (if s.x xb = 0 then s.x xa else BitVec.ofInt 64 ((s.x xa).toInt.tmod (s.x xb).toInt))) := by
  have hv := ofNat_intRem true (s.x xa) (s.x xb)
  rw [intVal_signed, intVal_signed] at hv
  exact congrArg (putX s xd) hv

theorem exec_remn : exec (.remn xd xa xb) s = .next (s.setX xd
    (if s.x xb = 0 then s.x xa else BitVec.ofNat 64 ((s.x xa).toNat % (s.x xb).toNat))) := by
  have hv := ofNat_intRem false (s.x xa) (s.x xb)
  rw [intVal_unsigned, intVal_unsigned, ← Int.ofNat_tmod, BitVec.ofInt_natCast] at hv
  exact congrArg (putX s xd) hv

theorem exec_and : exec (.and xd xa xb) s = .next (s.setX xd (s.x xa &&& s.x xb)) := rfl
theorem exec_or : exec (.or xd xa xb) s = .next (s.setX xd (s.x xa ||| s.x xb)) := rfl
theorem exec_xor : exec (.xor xd xa xb) s = .next (s.setX xd (s.x xa ^^^ s.x xb)) := rfl

theorem exec_shl : exec (.shl xd xa xb) s =
    .next (s.setX xd (if 64 ≤ (s.x xb).toNat then 0 else s.x xa <<< (s.x xb).toNat)) := rfl

theorem exec_shr : exec (.shr xd xa xb) s =
    .next (s.setX xd (if 64 ≤ (s.x xb).toNat then 0 else s.x xa >>> (s.x xb).toNat)) := rfl

theorem exec_sra : exec (.sra xd xa xb) s = .next (s.setX xd ((s.x xa).sshiftRight (min (s.x xb).toNat 63))) :=
  congrArg (putX s xd) (sraW_eq_sshiftRight_min ..)

theorem exec_min : exec (.min xd xa xb) s =
    .next (s.setX xd (if (s.x xa).toInt ≤ (s.x xb).toInt then s.x xa else s.x xb)) :=
  congrArg (putX s xd) (ite_slt_eq_ite_le id)

theorem exec_max : exec (.max xd xa xb) s =
    .next (s.setX xd (if (s.x xa).toInt ≤ (s.x xb).toInt then s.x xb else s.x xa)) :=
  congrArg (putX s xd) (ite_slt_eq_ite_le Eq.symm)

theorem exec_minn : exec (.minn xd xa xb) s =
    .next (s.setX xd (if (s.x xa).toNat ≤ (s.x xb).toNat then s.x xa else s.x xb)) :=
  congrArg (putX s xd) (ite_ult_eq_ite_le id)

theorem exec_maxn : exec (.maxn xd xa xb) s =
    .next (s.setX xd (if (s.x xa).toNat ≤ (s.x xb).toNat then s.x xb else s.x xa)) :=
  congrArg (putX s xd) (ite_ult_eq_ite_le Eq.symm)

theorem exec_popc : exec (.popc xd xa) s =
    .next (s.setX xd (BitVec.ofNat 64 ((List.range 64).filter fun i => (s.x xa).getLsbD i).length)) :=
  congrArg (fun n => putX s xd (w64 n)) (popN_eq_length_filter (s.x xa).toNat 64)

theorem exec_clz : exec (.clz xd xa) s = .next (s.setX xd (BitVec.ofNat 64 (clzN (s.x xa).toNat 64))) := rfl

end

/-- Settles O4: each operation by its own equation, the count of CLZ by what `clzN` says of the bits. -/
theorem integerRegisterResults : Obligations.IntegerRegisterResults := by
  unfold Obligations.IntegerRegisterResults
  intro s xd xa xb a b gives
  refine ⟨exec_add .., exec_sub .., exec_mul .., exec_mulh .., exec_mulhn .., exec_div .., exec_divn .., exec_rem ..,
    exec_remn .., exec_and .., exec_or .., exec_xor .., exec_shl .., exec_shr .., exec_sra .., exec_min .., exec_max ..,
    exec_minn .., exec_maxn .., exec_popc .., clzN a.toNat 64, exec_clz .., clzN_le .., fun i hi => ?high,
    testBit_of_clzN_lt a.toNat⟩
  case high =>
    rcases Nat.lt_or_ge i 64 with hin | hout
    · exact testBit_eq_false_of_clzN a.toNat hi hin
    · exact BitVec.getLsbD_of_ge a i hout

end Sys2Proof.Proofs
end
